-- ==== Sys2Proof/Word.lean ====
section
/-!
DEFINITION. The word types of Vequin (03_word R45, R46; 05_core R94): 64-bit registers, 2,048-bit
vector registers, 256-bit mask registers, 32-bit instruction words and 8-bit memory bytes.
-/
namespace Sys2Proof

/-- A 64-bit register, pointer or CSR value. -/
abbrev Word := BitVec 64
/-- One byte of memory. -/
abbrev Byte := BitVec 8
/-- A 2,048-bit vector register (R94). -/
abbrev VWord := BitVec 2048
/-- A 256-bit mask register (R94). -/
abbrev MWord := BitVec 256
/-- A 5-bit field that names x0 to x31 (R46). -/
abbrev Reg := BitVec 5
/-- A 4-bit field that names v0 to v15 (R46). -/
abbrev VReg := BitVec 4
/-- A 3-bit field that names m0 to m7 (R46). -/
abbrev MReg := BitVec 3

end Sys2Proof
end

