-- ==== Sys2Proof/Syntax.lean ====
section
/-!
DEFINITION. The steps of PLV-4, one constructor per row of spec/opcode_table.json. A constructor of an encoded row
holds that row's fields, each at the width its format gives it (R46 to R51); its meaning is in Machine. A constructor
of a row without an encoding is an event of an engine, of Helben, of the host or of the fabric
(95_what_each_step_holds); its parameters name the agent: `t` is a thread by its number in `State.threads`, `core` is
die * 1152 + cluster * 32 + core, `cluster` is die * 36 + cluster, `bank` is cluster * 32 + bank.
-/
namespace Sys2Proof

/-- What an access does with the bytes it names (R152). -/
inductive AccessKind where
  | load
  | store
  | fetch
  deriving DecidableEq, Repr

/-- An access that another package sends to this one (R372): the target address is a device virtual address here. -/
inductive RemoteReq where
  /-- A load of n bytes. -/
  | load (va : Word) (n : Nat)
  /-- A store of the low n bytes of data. -/
  | store (va : Word) (n : Nat) (data : Word)
  /-- An ATOM of operation op and size n, returning or not, with the issuer's operands, MULT and FRM (R305). -/
  | atom (va : Word) (op n : Nat) (ret : Bool) (b c : Word) (mult : Nat) (frm : BitVec 2)
  /-- A launch of the package completes: the operations of it that are staged here are applied (R280, R311). -/
  | finish
  deriving DecidableEq, Repr

/-- An access of another package with its sequence number (R369, R372): beside it the launch context that it comes from and the key of an
operation that may be staged (R310). -/
structure RemoteMsg where
  seqno : Nat
  req   : RemoteReq
  lctx  : Nat := 1
  wid   : Word := 0
  key   : Nat := 0
  deriving DecidableEq, Repr

/-- Where a host access of the endpoint goes (R364): to an offset of BAR 0, or to a device virtual address through BAR 2. -/
inductive HostPlace where
  | bar0 (off : Nat)
  | bar2 (va : Word)
  deriving DecidableEq, Repr

/-- A flit that a link sends again (R368): `same` says that the link's last replay was of this flit too, not delivered since. -/
structure Replay where
  link : Nat
  same : Bool
  deriving DecidableEq, Repr

/-- What a scrub finds (R379): the lines of DRAM with an uncorrectable word, those in which it corrected an error, and the 8-byte SRAM
words that hold an uncorrectable error from now on, or in which it corrected one (log 57). -/
structure Scrub where
  lines     : List Nat
  corrected : List Nat
  sram      : List Nat
  correctedSram : List Nat := []
  deriving DecidableEq, Repr

/-- What a request to a line's home slice asks (R301): a copy for a core's L1 or for its cluster's cache, to read or to write, or that the
slice evicts the line. -/
inductive LineKind where
  | read
  | write
  | clusterRead
  | clusterWrite
  | evict
  deriving DecidableEq, Repr

/-- A part that Helben retires (R380). -/
inductive Part where
  | core (core : Nat)
  | cluster (cluster : Nat)
  | slice (die slice : Nat)
  | lane (die lane : Nat)
  | channel (die channel : Nat)
  deriving DecidableEq, Repr

/-- The policy that Helben's firmware chooses (R376): the power cap, the halt limit and the watch addresses. -/
structure Policy where
  cap       : Nat
  haltLimit : Nat
  watch     : List (Nat × List Word)
  deriving DecidableEq, Repr

/-- What a sample of the sensors finds (R378): die temperatures, rail powers and the coolant temperature, the partitions that have
reached a thermal limit with the cap at its floor, the dies that have failed (R381), and a new policy where the firmware chooses one
(R376). -/
structure Reading where
  temps   : List Nat
  rails   : List Nat
  coolant : Nat
  hot     : List Nat
  dead    : List Nat
  policy  : Option Policy
  deriving DecidableEq, Repr

/-- What the outside world gives a start-up (R374): whether each firmware slot verifies, the lanes and channels that
fail training, the width and rate to which the host link trains (R363), the partition number of each cluster, the fabric's mode, with
the configured dimensions of a torus and the packages on each one's ring (R371), the policy of R376, and the resident supervisor's
image. -/
structure Startup where
  slotOk     : List Bool
  failed     : List Part
  partitions : List (Nat × Nat)
  torus      : Bool
  device     : Nat
  live       : List Nat
  dims       : List Nat
  rings      : List Nat
  width      : Nat
  rate       : Nat
  hostAsid   : BitVec 16
  hostRoot   : Word
  remotes    : List (Nat × Word)
  policy     : Policy
  imageOk    : Bool
  image      : List (Nat × Byte)
  entry      : Word
  root       : Word
  deriving DecidableEq, Repr

/-- The instructions and events of PLV-4. -/
inductive Instr where
  /-- INSTRUCTION_FETCH (R45). Fetches the thread's next word from GLOBAL space, raising fetch faults. -/
  | instructionFetch (t : Nat)
  /-- TRAP_ENTRY (R134). Takes a pending trap at an instruction boundary after the outstanding head ends. -/
  | trapEntry (t : Nat)
  /-- TRAPPING_PERIOD_END (R85). After 16 cycles the TRAPPING slot resumes at the handler or return point. -/
  | trappingPeriodEnd (t : Nat)
  /-- LOAD_DATA_RETURN (R118). A load's data arrives and is written to its destination, retiring the head. -/
  | loadDataReturn (t : Nat)
  /-- STORE_ACCEPT (R118). A store is accepted by the L1, bank or slice and completes. -/
  | storeAccept (t : Nat)
  /-- DIVIDE_COMPLETE (R102). A divide completes 40 or 24 cycles after issue and writes its result. -/
  | divideComplete (t : Nat)
  /-- VECTOR_ACCESS_COMPLETE (R222). The last enabled lane of a vector access is written or accepted. -/
  | vectorAccessComplete (t : Nat)
  /-- MMA_COMPLETE (R236). The matrix engine finishes an MMA and writes the tile. -/
  | mmaComplete (t : Nat)
  /-- MLD_MST_COMPLETE (R239). A tile load or store finishes all its elements. -/
  | mldMstComplete (t : Nat)
  /-- PAGE_TABLE_WALK (R151). A slice walker walks the page table for a TLB miss and returns the result. -/
  | pageTableWalk (t : Nat) (va : Word) (kind : AccessKind)
  /-- ROTATION_BOUNDARY (R283). At each rotation boundary the task engine fills EMPTY slots by priority and deficit. -/
  | rotationBoundary
  /-- STEAL_REQUEST (R284). An idle core asks a victim for work, which gives or splits an entry or refuses. -/
  | stealRequest (core : Nat)
  /-- STARVATION_PREEMPTION (R287). After 64 starved rotations a core pre-empts one over-share slot. -/
  | starvationPreemption (core : Nat)
  /-- PREEMPTION_SAVE (R145). The core brings a slot to a boundary and saves its context into the context cache. -/
  | preemptionSave (t : Nat)
  /-- WATCHDOG_EXPIRY (R146). A thread that has not retired for WDOG rotations takes WATCHDOG. -/
  | watchdogExpiry (t : Nat)
  /-- DATAPATH_CHECK_RETIREMENT (R139). A persistent residue mismatch retires the core and moves its threads. -/
  | datapathCheckRetirement (t : Nat)
  /-- DEBUG_STEP (R137). Helben single-steps a thread, which takes DEBUG_STEP at its next boundary. -/
  | debugStep (t : Nat)
  /-- MEET_WINDOW_END (R165). A TIMED entry departs at its window end and its owner is woken. -/
  | meetWindowEnd (bank : Nat)
  /-- MEET_ENTRY_FREE (R165). A departed TIMED entry becomes free 256 rotations after departure. -/
  | meetEntryFree (bank : Nat)
  /-- BANK_MODE_CHANGE (R15). A bank drains, releases its old state, is zeroed and enters its new mode. -/
  | bankModeChange (bank : Nat)
  /-- COPY_REQUEST_ACCEPT (R254). The copy engine takes a request from a command FIFO head and checks it. -/
  | copyRequestAccept (cluster : Nat)
  /-- COPY_TRANSFER (R255). The engine reads the source and writes the destination of an accepted request. -/
  | copyTransfer (cluster : Nat)
  /-- COPY_LOOP_ITERATION (R247). A TILE_LOOP iteration waits for free stages, writes them and publishes them. -/
  | copyLoopIteration (cluster : Nat)
  /-- HELD_MAILBOX_POSTING (R258). A message held for a full mailbox is enqueued when an entry frees. -/
  | heldMailboxPosting (core : Nat)
  /-- BARRIER_PHASE_COMPLETE (R268). At end of cycle a barrier with all arrivals and zero pending completes its phase. -/
  | barrierPhaseComplete (cluster id : Nat)
  /-- LAUNCH_COMPLETION (R280). When the root finishes the launch applies staging, releases, posts events and decrements dependants. -/
  | launchCompletion (lctx : Nat)
  /-- COHERENT_LINE_REQUEST (R302). The home slice accepts a request to a line, recalling copies as the directory requires. -/
  | coherentLineRequest (core line : Nat) (kind : LineKind)
  /-- SLICE_ATOMIC_PERFORM (R303). The home slice performs an atomic on its word and returns the old value. -/
  | sliceAtomicPerform (t : Nat)
  /-- SMERGE_PERFORM (R308). The home slice merges a partial into a soft-max triple. -/
  | smergePerform (t : Nat)
  /-- STAGED_RECORD_ACCEPT (R312). A slice accepts a staged operation's record under the staging budget. -/
  | stagedRecordAccept (t : Nat)
  /-- EVALUATION_START (R321). A load finding SUSPENDED marks the cell EVALUATING, pushes the thunk and parks the loader. -/
  | evaluationStart (t : Nat)
  /-- BROKER_REQUEST (R357). A core asks Helben to refill its broker cache from a brokered pool. -/
  | brokerRequest (t : Nat)
  /-- BROKER_FLAG_CHANGE (R357). Helben sets or clears a pool's brokered flag, flushing cached pages. -/
  | brokerFlagChange (pool ptbase : Word) (set : Bool)
  /-- WFI_TIMEOUT (R133). A WFI's cycle limit expires and it completes with reason 3. -/
  | wfiTimeout (t : Nat)
  /-- WAITM_TIMEOUT (R265). A WAITM's cycle limit expires and it returns 0. -/
  | waitmTimeout (t : Nat)
  /-- HELBEN_NOTIFICATION (R133). Helben posts a notification to a registered handle, completing WFI with reason 2. -/
  | helbenNotification (handle : Nat)
  /-- DOORBELL_RING (R365). A host write to a cluster doorbell sets doorbell pending and wakes WFI threads. -/
  | doorbellRing (cluster : Nat)
  /-- HOST_BAR2_READ (R364). A host read through BAR 2 returns device memory raw. A read of BAR 0, for which the table has no row, comes
  here too. -/
  | hostBar2Read (place : HostPlace) (n : Nat)
  /-- HOST_BAR2_WRITE (R364). A host write through BAR 2 writes device memory with tag VALUE. -/
  | hostBar2Write (va : Word) (n data : Nat)
  /-- HOST_BAR0_WRITE (R364). A host write to BAR 0 registers without a row of their own, such as the MSI-X table. -/
  | hostBar0Write (off n data : Nat)
  /-- FUNCTION_LEVEL_RESET (R367). Stops host traffic and clears the MSI-X table and doorbells. -/
  | functionLevelReset
  /-- CONVENTIONAL_RESET (R367). Stops host traffic and clears the MSI-X table and doorbells. -/
  | conventionalReset
  /-- LINK_FLIT_REPLAY (R368). A flit failing its CRC is sent again from the replay buffer. -/
  | linkFlitReplay (flit : Replay)
  /-- LINK_RESET_RETRAIN (R368). A link failing 16 replays or losing lock is reset and retrained. -/
  | linkResetRetrain (link : Nat)
  /-- REMOTE_REQUEST (R372). A REMOTE access arrives at the target package and is translated and performed. -/
  | remoteRequest (dev : Nat) (sup : Bool) (msg : RemoteMsg)
  /-- REMOTE_RESPONSE_TIMEOUT (R369). A REMOTE access without response 2^20 cycles after a link reset traps LINK_RESET. -/
  | remoteResponseTimeout (t : Nat)
  /-- PARTITION_HALT (R149). Helben halts a partition, bringing every slot to a boundary. -/
  | partitionHalt (pid : Nat) (stop : Bool) (reason : Word)
  /-- HALT_LIMIT_EXPIRY (R149). A halt waiting beyond Helben's limit ends in MACHINE_CHECK for waiting threads. -/
  | haltLimitExpiry (pid : Nat)
  /-- HALT_REMOTE_TIMEOUT (R149). A REMOTE head not completing within 2^20 cycles during a halt ends in LINK_RESET. -/
  | haltRemoteTimeout (t : Nat)
  /-- PARTITION_SWAP (R150). Helben saves a halted partition's state and loads another's. -/
  | partitionSwap (out load : Nat)
  /-- PARTITION_RELEASE (R149). Helben releases a halted partition, resuming or stopping its threads. -/
  | partitionRelease (pid : Nat)
  /-- POWER_ON_STARTUP (R374). After power-on or reset Helben boots, trains, configures and starts the supervisor. -/
  | powerOnStartup (c : Startup)
  /-- FIRMWARE_UPDATE (R375). An image written over the management port is verified and marked pending. -/
  | firmwareUpdate (version : Nat) (verified : Bool)
  /-- FIRMWARE_CONFIRM (R375). The supervisor confirms a pending image, making it active and raising the counter. -/
  | firmwareConfirm
  /-- POWER_SENSE (R377). Every microsecond each die senses power and sets its throttle level. -/
  | powerSense (die watts level : Nat)
  /-- SENSOR_SAMPLE (R378). Every millisecond Helben samples temperatures and powers, possibly stop-halting partitions. -/
  | sensorSample (r : Reading)
  /-- DRAM_SCRUB (R379). Helben scrubs all DRAM every 24 hours, marking uncorrectable lines. -/
  | dramScrub (found : Scrub)
  /-- PART_RETIREMENT (R380). Helben retires a core, cluster, slice, lane or channel and logs it. -/
  | partRetirement (part : Part)
  /-- LAUNCH_REPLAY (R382). Helben ends and re-runs an interrupted replayable launch. -/
  | launchReplay (lctx : Nat)
  /-- CONTROL_REGISTER_WRITE (R148). A supervisor store to a CONTROL register such as CTXSPILL, DEQSPILL or WDOG. -/
  | controlRegisterWrite (t : Nat)
  /-- STARTUP_RETRY_COMMAND (R374). On a command over the management port, Helben retries start-up from step 4 after a failed supervisor fetch or verification. -/
  | startupRetryCommand (c : Startup)
  /-- RETIREMENT_LIFTED (R380). A retired part returns to service when Helben is told otherwise through the management port. -/
  | retirementLifted (part : Part)
  /-- ADD (R103). Writes the 64-bit sum of two registers. -/
  | add (d a b : BitVec 5)
  /-- SUB (R103). Writes the 64-bit difference of two registers. -/
  | sub (d a b : BitVec 5)
  /-- AND (R103). Writes the bitwise AND of two registers. -/
  | and (d a b : BitVec 5)
  /-- OR (R103). Writes the bitwise OR of two registers. -/
  | or (d a b : BitVec 5)
  /-- XOR (R103). Writes the bitwise XOR of two registers. -/
  | xor (d a b : BitVec 5)
  /-- ANDN (R103). Writes A AND NOT B. -/
  | andn (d a b : BitVec 5)
  /-- ORN (R103). Writes A OR NOT B. -/
  | orn (d a b : BitVec 5)
  /-- XNOR (R103). Writes NOT (A XOR B). -/
  | xnor (d a b : BitVec 5)
  /-- SLL (R103). Shifts left by B[5:0]. -/
  | sll (d a b : BitVec 5)
  /-- SRL (R103). Shifts right logically by B[5:0]. -/
  | srl (d a b : BitVec 5)
  /-- SRA (R103). Shifts right arithmetically by B[5:0]. -/
  | sra (d a b : BitVec 5)
  /-- ROL (R103). Rotates left by B[5:0]. -/
  | rol (d a b : BitVec 5)
  /-- ROR (R103). Rotates right by B[5:0]. -/
  | ror (d a b : BitVec 5)
  /-- MIN (R103). Writes the signed minimum. -/
  | min (d a b : BitVec 5)
  /-- MAX (R103). Writes the signed maximum. -/
  | max (d a b : BitVec 5)
  /-- MINN (R103). Writes the unsigned minimum. -/
  | minn (d a b : BitVec 5)
  /-- MAXN (R103). Writes the unsigned maximum. -/
  | maxn (d a b : BitVec 5)
  /-- SLT (R103). Writes 1 if A is signed-less than B. -/
  | slt (d a b : BitVec 5)
  /-- SLTN (R103). Writes 1 if A is unsigned-less than B. -/
  | sltn (d a b : BitVec 5)
  /-- SEQ (R103). Writes 1 if A equals B. -/
  | seq (d a b : BitVec 5)
  /-- SNE (R103). Writes 1 if A differs from B. -/
  | sne (d a b : BitVec 5)
  /-- ADDW (R103). Writes the sign-extended 32-bit sum. -/
  | addw (d a b : BitVec 5)
  /-- SUBW (R103). Writes the sign-extended 32-bit difference. -/
  | subw (d a b : BitVec 5)
  /-- SLLW (R103). 32-bit left shift, sign-extended. -/
  | sllw (d a b : BitVec 5)
  /-- SRLW (R103). 32-bit logical right shift, sign-extended. -/
  | srlw (d a b : BitVec 5)
  /-- SRAW (R103). 32-bit arithmetic right shift, sign-extended. -/
  | sraw (d a b : BitVec 5)
  /-- MUL (R104). Writes the low 64 bits of the product. -/
  | mul (d a b : BitVec 5)
  /-- MULH (R104). Writes the high 64 bits of the signed product. -/
  | mulh (d a b : BitVec 5)
  /-- MULHN (R104). Writes the high 64 bits of the unsigned product. -/
  | mulhn (d a b : BitVec 5)
  /-- MULW (R104). Writes the sign-extended 32-bit product. -/
  | mulw (d a b : BitVec 5)
  /-- DIV (R105). Starts a signed 64-bit division truncating towards zero. -/
  | div (d a b : BitVec 5) (la : BitVec 4)
  /-- DIVN (R105). Starts an unsigned 64-bit division. -/
  | divn (d a b : BitVec 5) (la : BitVec 4)
  /-- REM (R105). Starts a signed 64-bit remainder. -/
  | rem (d a b : BitVec 5) (la : BitVec 4)
  /-- REMN (R105). Starts an unsigned 64-bit remainder. -/
  | remn (d a b : BitVec 5) (la : BitVec 4)
  /-- DIVW (R105). Starts a signed 32-bit division. -/
  | divw (d a b : BitVec 5) (la : BitVec 4)
  /-- REMW (R105). Starts a signed 32-bit remainder. -/
  | remw (d a b : BitVec 5) (la : BitVec 4)
  /-- CLZ (R106). Counts leading zero bits. -/
  | clz (d a : BitVec 5)
  /-- CTZ (R106). Counts trailing zero bits. -/
  | ctz (d a : BitVec 5)
  /-- POPC (R106). Counts one bits. -/
  | popc (d a : BitVec 5)
  /-- BREV (R106). Reverses the bit order. -/
  | brev (d a : BitVec 5)
  /-- BSWAP (R106). Reverses the byte order. -/
  | bswap (d a : BitVec 5)
  /-- ADDI (R107). Adds a sign-extended immediate. -/
  | addi (d a : BitVec 5) (imm : BitVec 15)
  /-- ANDI (R107). ANDs a sign-extended immediate. -/
  | andi (d a : BitVec 5) (imm : BitVec 15)
  /-- ORI (R107). ORs a sign-extended immediate. -/
  | ori (d a : BitVec 5) (imm : BitVec 15)
  /-- XORI (R107). XORs a sign-extended immediate. -/
  | xori (d a : BitVec 5) (imm : BitVec 15)
  /-- SLTI (R107). Signed compare against an immediate. -/
  | slti (d a : BitVec 5) (imm : BitVec 15)
  /-- SLTNI (R107). Unsigned compare against an immediate. -/
  | sltni (d a : BitVec 5) (imm : BitVec 15)
  /-- SLLI (R108). Shifts left by an immediate amount. -/
  | slli (d a : BitVec 5) (k : BitVec 6)
  /-- SRLI (R108). Shifts right logically by an immediate amount. -/
  | srli (d a : BitVec 5) (k : BitVec 6)
  /-- SRAI (R108). Shifts right arithmetically by an immediate amount. -/
  | srai (d a : BitVec 5) (k : BitVec 6)
  /-- ROLI (R108). Rotates left by an immediate amount. -/
  | roli (d a : BitVec 5) (k : BitVec 6)
  /-- RORI (R108). Rotates right by an immediate amount. -/
  | rori (d a : BitVec 5) (k : BitVec 6)
  /-- BFX (R109). Extracts a zero-extended bit field. -/
  | bfx (d a : BitVec 5) (p w : BitVec 6)
  /-- BFI (R109). Inserts a bit field into xd. -/
  | bfi (d a : BitVec 5) (p w : BitVec 6)
  /-- LIH (R110). Loads a sign-extended immediate times 4,096. -/
  | lih (d : BitVec 5) (imm : BitVec 20)
  /-- ADDPC (R110). Adds an immediate times 4,096 to the PC. -/
  | addpc (d : BitVec 5) (imm : BitVec 20)
  /-- BEQ (R111). Branches when the registers are equal. -/
  | beq (a b : BitVec 5) (off : BitVec 12)
  /-- BNE (R111). Branches when the registers differ. -/
  | bne (a b : BitVec 5) (off : BitVec 12)
  /-- BLT (R111). Branches on signed less-than. -/
  | blt (a b : BitVec 5) (off : BitVec 12)
  /-- BGE (R111). Branches on signed greater-or-equal. -/
  | bge (a b : BitVec 5) (off : BitVec 12)
  /-- BLTN (R111). Branches on unsigned less-than. -/
  | bltn (a b : BitVec 5) (off : BitVec 12)
  /-- BGEN (R111). Branches on unsigned greater-or-equal. -/
  | bgen (a b : BitVec 5) (off : BitVec 12)
  /-- CALL (R112). Writes the return address and jumps PC-relative. -/
  | call (d : BitVec 5) (off : BitVec 20)
  /-- JMPR (R113). Jumps to a register plus offset, linking in xd. -/
  | jmpr (d a : BitVec 5) (imm : BitVec 15)
  /-- LB (R114). Starts a sign-extending byte load. -/
  | lb (d a : BitVec 5) (la : BitVec 4) (off : BitVec 11)
  /-- LH (R114). Starts a sign-extending halfword load. -/
  | lh (d a : BitVec 5) (la : BitVec 4) (off : BitVec 11)
  /-- LW (R114). Starts a sign-extending word load. -/
  | lw (d a : BitVec 5) (la : BitVec 4) (off : BitVec 11)
  /-- LD (R114). Starts an 8-byte load. -/
  | ld (d a : BitVec 5) (la : BitVec 4) (off : BitVec 11)
  /-- LBN (R114). Starts a zero-extending byte load. -/
  | lbn (d a : BitVec 5) (la : BitVec 4) (off : BitVec 11)
  /-- LHN (R114). Starts a zero-extending halfword load. -/
  | lhn (d a : BitVec 5) (la : BitVec 4) (off : BitVec 11)
  /-- LWN (R114). Starts a zero-extending word load. -/
  | lwn (d a : BitVec 5) (la : BitVec 4) (off : BitVec 11)
  /-- SB (R114). Starts a byte store. -/
  | sb (d a : BitVec 5) (la : BitVec 4) (off : BitVec 11)
  /-- SH (R114). Starts a halfword store. -/
  | sh (d a : BitVec 5) (la : BitVec 4) (off : BitVec 11)
  /-- SW (R114). Starts a word store. -/
  | sw (d a : BitVec 5) (la : BitVec 4) (off : BitVec 11)
  /-- SD (R114). Starts an 8-byte store. -/
  | sd (d a : BitVec 5) (la : BitVec 4) (off : BitVec 11)
  /-- LWO (R120). Starts an annotated sign-extending word load. -/
  | lwo (d a : BitVec 5) (la : BitVec 4) (ord : BitVec 2) (scope : BitVec 3)
  /-- LDO (R120). Starts an annotated 8-byte load. -/
  | ldo (d a : BitVec 5) (la : BitVec 4) (ord : BitVec 2) (scope : BitVec 3)
  /-- SWO (R120). Starts an annotated word store. -/
  | swo (d a : BitVec 5) (la : BitVec 4) (ord : BitVec 2) (scope : BitVec 3)
  /-- SDO (R120). Starts an annotated 8-byte store. -/
  | sdo (d a : BitVec 5) (la : BitVec 4) (ord : BitVec 2) (scope : BitVec 3)
  /-- FENCE (R37). Waits until the thread's earlier accesses of the chosen set are performed at the scope. -/
  | fence (ord : BitVec 2) (scope : BitVec 3)
  /-- PF (R121). Prefetches a line into the level named by scope. -/
  | pf (a : BitVec 5) (la : BitVec 4) (scope : BitVec 3)
  /-- LTAG (R331). Reads a cell word and its tag without acting on the tag. -/
  | ltag (d a : BitVec 5) (la : BitVec 4) (ord : BitVec 2) (scope : BitVec 3)
  /-- SUSP (R332). Writes a thunk pointer into a cell and tags it SUSPENDED. -/
  | susp (d a : BitVec 5) (la : BitVec 4) (scope : BitVec 3)
  /-- RESOLVE (R333). Writes a value into a cell, tags it VALUE and wakes its waiters. -/
  | resolve (d a : BitVec 5) (la : BitVec 4) (scope : BitVec 3)
  /-- CFAIL (R333). Writes a failure code into a cell, tags it FAILED and fails its waiters. -/
  | cfail (d a : BitVec 5) (la : BitVec 4) (scope : BitVec 3)
  /-- CFLUSH (R122). Writes back a dirty line in the named caches. -/
  | cflush (a : BitVec 5) (la : BitVec 4) (ord : BitVec 2) (scope : BitVec 3)
  /-- CINV (R122). Writes back and invalidates a line in the named caches. -/
  | cinv (a : BitVec 5) (la : BitVec 4) (ord : BitVec 2) (scope : BitVec 3)
  /-- AADD (R303). Atomically adds MULT times B at the home slice. -/
  | aadd (d a : BitVec 5) (scope : BitVec 3) (ord : BitVec 2) (b : BitVec 5) (sz : BitVec 1)
  /-- AFADD (R303). Atomically adds MULT times an FP32 value with one rounding. -/
  | afadd (d a : BitVec 5) (scope : BitVec 3) (ord : BitVec 2) (b : BitVec 5)
  /-- AAND (R303). Atomic AND. -/
  | aand (d a : BitVec 5) (scope : BitVec 3) (ord : BitVec 2) (b : BitVec 5) (sz : BitVec 1)
  /-- AOR (R303). Atomic OR. -/
  | aor (d a : BitVec 5) (scope : BitVec 3) (ord : BitVec 2) (b : BitVec 5) (sz : BitVec 1)
  /-- AXOR (R303). Atomic XOR. -/
  | axor (d a : BitVec 5) (scope : BitVec 3) (ord : BitVec 2) (b : BitVec 5) (sz : BitVec 1)
  /-- AMIN (R303). Atomic signed minimum. -/
  | amin (d a : BitVec 5) (scope : BitVec 3) (ord : BitVec 2) (b : BitVec 5) (sz : BitVec 1)
  /-- AMAX (R303). Atomic signed maximum. -/
  | amax (d a : BitVec 5) (scope : BitVec 3) (ord : BitVec 2) (b : BitVec 5) (sz : BitVec 1)
  /-- AMINN (R303). Atomic unsigned minimum. -/
  | aminn (d a : BitVec 5) (scope : BitVec 3) (ord : BitVec 2) (b : BitVec 5) (sz : BitVec 1)
  /-- AMAXN (R303). Atomic unsigned maximum. -/
  | amaxn (d a : BitVec 5) (scope : BitVec 3) (ord : BitVec 2) (b : BitVec 5) (sz : BitVec 1)
  /-- AFMIN (R303). Atomic FP32 minimum. -/
  | afmin (d a : BitVec 5) (scope : BitVec 3) (ord : BitVec 2) (b : BitVec 5)
  /-- AFMAX (R303). Atomic FP32 maximum. -/
  | afmax (d a : BitVec 5) (scope : BitVec 3) (ord : BitVec 2) (b : BitVec 5)
  /-- ASWP (R303). Atomic swap. -/
  | aswp (d a : BitVec 5) (scope : BitVec 3) (ord : BitVec 2) (b : BitVec 5) (sz : BitVec 1)
  /-- ACAS (R303). Atomic compare and swap using the pair xb, xb+1. -/
  | acas (d a : BitVec 5) (scope : BitVec 3) (ord : BitVec 2) (b : BitVec 5) (sz : BitVec 1)
  /-- AADDO (R303). Atomic add of B once, ignoring MULT. -/
  | aaddo (d a : BitVec 5) (scope : BitVec 3) (ord : BitVec 2) (b : BitVec 5) (sz : BitVec 1)
  /-- AFADDO (R303). Atomic FP32 add of B once. -/
  | afaddo (d a : BitVec 5) (scope : BitVec 3) (ord : BitVec 2) (b : BitVec 5)
  /-- SMERGE (R308). Merges a soft-max partial into a triple at its home slice. -/
  | smerge (d : BitVec 4) (a : BitVec 5) (scope : BitVec 3) (ord : BitVec 2) (b op : BitVec 5)
  /-- KVRSV (R350). Reserves n pages of a pool into a purse, or refuses. -/
  | kvrsv (d a : BitVec 5) (scope : BitVec 3)
  /-- KVTAKE (R350). Draws one reserved page and initialises its header. -/
  | kvtake (d a : BitVec 5) (scope : BitVec 3)
  /-- KVGIVE (R350). Returns a page to its pool, or refunds a purse's remaining reservation. -/
  | kvgive (d a : BitVec 5) (scope : BitVec 3)
  /-- KVSHARE (R351). Adds a reference to a K page and invalidates its TLB entries. -/
  | kvshare (d a : BitVec 5) (scope : BitVec 3)
  /-- KVREL (R352). Drops a reference to a K page, returning it to its pool at zero. -/
  | kvrel (d a : BitVec 5) (scope : BitVec 3)
  /-- KVPASS (R355). Hands K pages to another die and release-stores a flag. -/
  | kvpass (d a : BitVec 5) (scope : BitVec 3)
  /-- KVCOW (R353). Gives the issuing sequence a private copy of a shared page. -/
  | kvcow (d a : BitVec 5) (scope : BitVec 3)
  /-- KVSCL (R354). Replaces a K page's quantisation scale. -/
  | kvscl (d a : BitVec 5) (scope : BitVec 3)
  /-- MEET_C (R164). Arrives at a COUNTED meet table entry, merging, parking or continuing alone. -/
  | meetC (d a b : BitVec 5)
  /-- MEET_T (R164). Arrives at a TIMED meet table entry, merging, parking or continuing alone. -/
  | meetT (d a b : BitVec 5)
  /-- MLIVE (R161). Sets the LIVE mask and returns the old one. -/
  | mlive (d a : BitVec 5)
  /-- MCLR (R173). Departs every open entry of a table with status cut. -/
  | mclr (d a : BitVec 5)
  /-- MLOG (R172). Reads and rebinds a table's member log. -/
  | mlog (d a b : BitVec 5)
  /-- SPAWN (R290). Pushes a task record on the issuer's deque. -/
  | spawn (d a : BitVec 5)
  /-- SPAWNX (R290). Pushes a task record on a named core's deque. -/
  | spawnx (d a b : BitVec 5)
  /-- CONT (R291). Adds to a continuation's join count and pushes it at zero. -/
  | cont (d a b : BitVec 5)
  /-- RETIRE (R292). Ends the thread, decrementing a continuation and its leaf. -/
  | retire (a : BitVec 5)
  /-- LAUNCH (R293). Checks a launch header, allocates a context and pushes the range. -/
  | launch (d a : BitVec 5)
  /-- YIELD (R294). Offers the slot back at the next rotation boundary. -/
  | yield (d : BitVec 5)
  /-- SEND (R264). Delivers a message to a slot's mailbox, waiting for room. -/
  | send (d a b : BitVec 5)
  /-- SENDT (R264). Delivers a message if the mailbox has room, else reports failure. -/
  | sendt (d a b : BitVec 5)
  /-- WAITM (R265). Waits until a mailbox entry is present or a cycle limit passes. -/
  | waitm (d a : BitVec 5)
  /-- RECV (R265). Parks until a mailbox entry arrives and removes the oldest. -/
  | recv (d : BitVec 5)
  /-- PEEKM (R265). Returns the number of mailbox entries present. -/
  | peekm (d : BitVec 5)
  /-- BARA (R268). Arrives at a barrier with weight MULT. -/
  | bara (d a : BitVec 5)
  /-- BARW (R268). Waits for the barrier phase of a given parity to complete. -/
  | barw (d a b : BitVec 5)
  /-- BAR (R268). Arrives at a barrier and waits for its phase. -/
  | bar (d a : BitVec 5)
  /-- BAREX (R268). Adds expected bytes to a barrier's pending count. -/
  | barex (d a b : BitVec 5)
  /-- BARCFG (R267). Configures a barrier's participant count, expectation and flag collection. -/
  | barcfg (d a b : BitVec 5)
  /-- QRES (R271). Reserves the next free channel stage as writer. -/
  | qres (d a : BitVec 5)
  /-- QPUB (R271). Publishes the writer's reserved stage. -/
  | qpub (d a : BitVec 5)
  /-- QACQ (R271). Acquires the next published channel stage as reader. -/
  | qacq (d a : BitVec 5)
  /-- QREL (R271). Frees the reader's acquired stage. -/
  | qrel (d a : BitVec 5)
  /-- BANKCFG (R252). Requests a mode change of a cluster SRAM bank. -/
  | bankcfg (d a b : BitVec 5)
  /-- CPY (R261). Pushes a copy request from registers into the command FIFO. -/
  | cpy (d a b : BitVec 5)
  /-- CPYT (R261). Pushes a copy request read from memory into the command FIFO. -/
  | cpyt (d a : BitVec 5)
  /-- CSRR (R123). Reads a CSR. -/
  | csrr (d : BitVec 5) (csr : BitVec 12)
  /-- CSRW (R123). Writes a CSR and returns its old value. -/
  | csrw (d a : BitVec 5) (csr : BitVec 12)
  /-- CSRS (R123). Sets CSR bits and returns the old value. -/
  | csrs (d a : BitVec 5) (csr : BitVec 12)
  /-- CSRC (R123). Clears CSR bits and returns the old value. -/
  | csrc (d a : BitVec 5) (csr : BitVec 12)
  /-- ECALL (R126). Traps ECALL_USER or ECALL_SUPERVISOR. -/
  | ecall
  /-- EBREAK (R126). Traps BREAKPOINT. -/
  | ebreak
  /-- TRET (R127). Returns from a trap, re-executing a skipped head when ESKIP is nonzero. -/
  | tret
  /-- FENCEI (R128). Waits for package-scope performance and discards the L1 instruction cache. -/
  | fencei
  /-- TLBINV (R129). Invalidates selected translations in every TLB of the package. -/
  | tlbinv (a b : BitVec 5)
  /-- CTXOUT (R130). Saves another slot's thread as a context record and empties the slot. -/
  | ctxout (d a b : BitVec 5)
  /-- CTXIN (R131). Restores a context record into a slot of the issuing core. -/
  | ctxin (d a b : BitVec 5)
  /-- HALT (R132). Ends the thread without decrementing its leaf and logs an event. -/
  | halt (a : BitVec 5)
  /-- WFI (R133). Keeps the thread bound until a mailbox entry, doorbell, notification or timeout. -/
  | wfi (d a : BitVec 5)
  /-- VLD (R220). Starts a 64-lane contiguous vector load. -/
  | vld (d : BitVec 4) (a : BitVec 5) (la : BitVec 4) (mk : BitVec 3) (off : BitVec 8)
  /-- VST (R220). Starts a 64-lane contiguous vector store. -/
  | vst (d : BitVec 4) (a : BitVec 5) (la : BitVec 4) (mk : BitVec 3) (off : BitVec 8)
  /-- VLDS (R220). Starts a strided vector load. -/
  | vlds (d : BitVec 4) (a : BitVec 5) (la : BitVec 4) (mk : BitVec 3) (off : BitVec 8)
  /-- VSTS (R220). Starts a strided vector store. -/
  | vsts (d : BitVec 4) (a : BitVec 5) (la : BitVec 4) (mk : BitVec 3) (off : BitVec 8)
  /-- VGATH (R220). Starts a gather with offsets from v(d+1). -/
  | vgath (d : BitVec 4) (a : BitVec 5) (la : BitVec 4) (mk : BitVec 3) (off : BitVec 8)
  /-- VSCAT (R220). Starts a scatter with offsets from v(d+1). -/
  | vscat (d : BitVec 4) (a : BitVec 5) (la : BitVec 4) (mk : BitVec 3) (off : BitVec 8)
  /-- VSTQ (R223). Quantises 64 FP32 lanes to E4M3 bytes on a K page using its scale. -/
  | vstq (d : BitVec 4) (a : BitVec 5) (la : BitVec 4) (mk : BitVec 3) (off : BitVec 8)
  /-- MMA_E4M3 (R234). Issues an E4M3 by E4M3 tile multiply-accumulate. -/
  | mmaE4m3 (acc : BitVec 3) (mode : BitVec 2) (a b : BitVec 5) (la : BitVec 4)
  /-- MMA_E5M2 (R234). Issues an E5M2 by E5M2 tile multiply-accumulate. -/
  | mmaE5m2 (acc : BitVec 3) (mode : BitVec 2) (a b : BitVec 5) (la : BitVec 4)
  /-- MMA_E4M3E5M2 (R234). Issues an E4M3 by E5M2 tile multiply-accumulate. -/
  | mmaE4m3e5m2 (acc : BitVec 3) (mode : BitVec 2) (a b : BitVec 5) (la : BitVec 4)
  /-- MMA_E5M2E4M3 (R234). Issues an E5M2 by E4M3 tile multiply-accumulate. -/
  | mmaE5m2e4m3 (acc : BitVec 3) (mode : BitVec 2) (a b : BitVec 5) (la : BitVec 4)
  /-- MMA_BF16 (R234). Issues a BF16 tile multiply-accumulate. -/
  | mmaBf16 (acc : BitVec 3) (mode : BitVec 2) (a b : BitVec 5) (la : BitVec 4)
  /-- MMA_F16 (R234). Issues an FP16 tile multiply-accumulate. -/
  | mmaF16 (acc : BitVec 3) (mode : BitVec 2) (a b : BitVec 5) (la : BitVec 4)
  /-- MMA_I8 (R234). Issues an INT8 tile multiply-accumulate into INT40. -/
  | mmaI8 (acc : BitVec 3) (mode : BitVec 2) (a b : BitVec 5) (la : BitVec 4)
  /-- MMA_MINT (R233). Issues an E4M3 by Mint-panel tile multiply-accumulate. -/
  | mmaMint (acc : BitVec 3) (mode : BitVec 2) (a b : BitVec 5) (la : BitVec 4)
  /-- MACQ_FP (R229). Waits for a tile and acquires it zeroed in FP40 kind. -/
  | macqFp (acc : BitVec 3)
  /-- MACQ_INT (R229). Waits for a tile and acquires it zeroed in INT40 kind. -/
  | macqInt (acc : BitVec 3)
  /-- MREL (R229). Releases a held tile, keeping its contents. -/
  | mrel (acc : BitVec 3)
  /-- MZERO (R229). Zeroes a held tile and its clamp bits. -/
  | mzero (acc : BitVec 3)
  /-- MCFG (R241). Writes MXCFG from a register. -/
  | mcfg (a : BitVec 5)
  /-- MLD (R238). Starts loading a tile from memory under a code and stride. -/
  | mld (acc : BitVec 3) (a b : BitVec 5) (la : BitVec 4)
  /-- MST (R238). Starts storing a tile to memory, narrowing under MXCFG. -/
  | mst (acc : BitVec 3) (a b : BitVec 5) (la : BitVec 4)
  /-- MRDV (R240). Moves two tile rows into a vector register. -/
  | mrdv (acc : BitVec 3) (v : BitVec 4) (b : BitVec 5)
  /-- MWRV (R240). Moves a vector register into two tile rows. -/
  | mwrv (acc : BitVec 3) (v : BitVec 4) (b : BitVec 5)
  /-- MFLG_FOLD (R242). Raises FFLAGS from nonzero matrix counters and clears them. -/
  | mflgFold
  /-- MFLG_CLEAR (R242). Clears the matrix counters. -/
  | mflgClear
  /-- MFLG_RAISE (R242). Raises FFLAGS from nonzero matrix counters and keeps them. -/
  | mflgRaise
  /-- VADD (R206). Vector floating-point add. -/
  | vadd (d a b : BitVec 4) (mk : BitVec 3) (ty : BitVec 4)
  /-- VSUB (R206). Vector floating-point subtract. -/
  | vsub (d a b : BitVec 4) (mk : BitVec 3) (ty : BitVec 4)
  /-- VMUL (R206). Vector floating-point multiply. -/
  | vmul (d a b : BitVec 4) (mk : BitVec 3) (ty : BitVec 4)
  /-- VDIV (R206). Vector floating-point divide. -/
  | vdiv (d a b : BitVec 4) (mk : BitVec 3) (ty : BitVec 4)
  /-- VFMA (R206). Vector fused multiply-add into vd. -/
  | vfma (d a b : BitVec 4) (mk : BitVec 3) (ty : BitVec 4)
  /-- VFMS (R206). Vector fused multiply-subtract. -/
  | vfms (d a b : BitVec 4) (mk : BitVec 3) (ty : BitVec 4)
  /-- VFNMA (R206). Vector fused negated multiply-add. -/
  | vfnma (d a b : BitVec 4) (mk : BitVec 3) (ty : BitVec 4)
  /-- VMIN (R206). Vector floating-point minimum. -/
  | vmin (d a b : BitVec 4) (mk : BitVec 3) (ty : BitVec 4)
  /-- VMAX (R206). Vector floating-point maximum. -/
  | vmax (d a b : BitVec 4) (mk : BitVec 3) (ty : BitVec 4)
  /-- VABS (R206). Vector absolute value. -/
  | vabs (d a : BitVec 4) (mk : BitVec 3) (ty : BitVec 4)
  /-- VNEG (R206). Vector negation. -/
  | vneg (d a : BitVec 4) (mk : BitVec 3) (ty : BitVec 4)
  /-- VSQRT (R206). Vector square root. -/
  | vsqrt (d a : BitVec 4) (mk : BitVec 3) (ty : BitVec 4)
  /-- VRSQ (R206). Vector reciprocal square root. -/
  | vrsq (d a : BitVec 4) (mk : BitVec 3) (ty : BitVec 4)
  /-- VRCP (R206). Vector reciprocal. -/
  | vrcp (d a : BitVec 4) (mk : BitVec 3) (ty : BitVec 4)
  /-- VEXP2 (R206). Vector base-2 exponential. -/
  | vexp2 (d a : BitVec 4) (mk : BitVec 3) (ty : BitVec 4)
  /-- VLOG2 (R206). Vector base-2 logarithm. -/
  | vlog2 (d a : BitVec 4) (mk : BitVec 3) (ty : BitVec 4)
  /-- VCLASS (R208). Vector classification code. -/
  | vclass (d a : BitVec 4) (mk : BitVec 3) (ty : BitVec 4)
  /-- VIADD (R209). Vector integer add. -/
  | viadd (d a b : BitVec 4) (mk : BitVec 3) (ty : BitVec 4)
  /-- VISUB (R209). Vector integer subtract. -/
  | visub (d a b : BitVec 4) (mk : BitVec 3) (ty : BitVec 4)
  /-- VIMUL (R209). Vector integer multiply, low bits. -/
  | vimul (d a b : BitVec 4) (mk : BitVec 3) (ty : BitVec 4)
  /-- VAND (R209). Vector bitwise AND. -/
  | vand (d a b : BitVec 4) (mk : BitVec 3) (ty : BitVec 4)
  /-- VOR (R209). Vector bitwise OR. -/
  | vor (d a b : BitVec 4) (mk : BitVec 3) (ty : BitVec 4)
  /-- VXOR (R209). Vector bitwise XOR. -/
  | vxor (d a b : BitVec 4) (mk : BitVec 3) (ty : BitVec 4)
  /-- VSLL (R209). Vector shift left. -/
  | vsll (d a b : BitVec 4) (mk : BitVec 3) (ty : BitVec 4)
  /-- VSRL (R209). Vector logical shift right. -/
  | vsrl (d a b : BitVec 4) (mk : BitVec 3) (ty : BitVec 4)
  /-- VSRA (R209). Vector arithmetic shift right. -/
  | vsra (d a b : BitVec 4) (mk : BitVec 3) (ty : BitVec 4)
  /-- VIMIN (R209). Vector signed minimum. -/
  | vimin (d a b : BitVec 4) (mk : BitVec 3) (ty : BitVec 4)
  /-- VIMAX (R209). Vector signed maximum. -/
  | vimax (d a b : BitVec 4) (mk : BitVec 3) (ty : BitVec 4)
  /-- VIMINN (R209). Vector unsigned minimum. -/
  | viminn (d a b : BitVec 4) (mk : BitVec 3) (ty : BitVec 4)
  /-- VIMAXN (R209). Vector unsigned maximum. -/
  | vimaxn (d a b : BitVec 4) (mk : BitVec 3) (ty : BitVec 4)
  /-- VCMP_EQ (R210). Writes a mask of element equality. -/
  | vcmpEq (d : BitVec 3) (a b : BitVec 4) (mk : BitVec 3) (ty : BitVec 4)
  /-- VCMP_NE (R210). Writes a mask of element inequality. -/
  | vcmpNe (d : BitVec 3) (a b : BitVec 4) (mk : BitVec 3) (ty : BitVec 4)
  /-- VCMP_LT (R210). Writes a mask of less-than. -/
  | vcmpLt (d : BitVec 3) (a b : BitVec 4) (mk : BitVec 3) (ty : BitVec 4)
  /-- VCMP_LE (R210). Writes a mask of less-or-equal. -/
  | vcmpLe (d : BitVec 3) (a b : BitVec 4) (mk : BitVec 3) (ty : BitVec 4)
  /-- VCMP_UN (R210). Writes a mask of unordered elements. -/
  | vcmpUn (d : BitVec 3) (a b : BitVec 4) (mk : BitVec 3) (ty : BitVec 4)
  /-- VCMP_LTN (R210). Writes a mask of unsigned less-than. -/
  | vcmpLtn (d : BitVec 3) (a b : BitVec 4) (mk : BitVec 3) (ty : BitVec 4)
  /-- VCMP_LEN (R210). Writes a mask of unsigned less-or-equal. -/
  | vcmpLen (d : BitVec 3) (a b : BitVec 4) (mk : BitVec 3) (ty : BitVec 4)
  /-- VSEL (R211). Selects elements of va or vb by a mask. -/
  | vsel (d a b : BitVec 4) (mk : BitVec 3) (ty : BitVec 4)
  /-- VPERM (R211). Permutes elements of va by indices in vb. -/
  | vperm (d a b : BitVec 4) (mk : BitVec 3) (ty : BitVec 4)
  /-- VBCAST (R211). Broadcasts an x register into enabled elements. -/
  | vbcast (d : BitVec 4) (x : BitVec 5) (mk : BitVec 3) (ty : BitVec 4)
  /-- VEXT (R211). Extracts the lowest enabled element into an x register. -/
  | vext (x : BitVec 5) (b : BitVec 4) (mk : BitVec 3) (ty : BitVec 4)
  /-- VINS (R211). Inserts an x register at the lowest enabled element. -/
  | vins (d : BitVec 4) (x : BitVec 5) (mk : BitVec 3) (ty : BitVec 4)
  /-- VIOTA (R211). Writes each enabled element's index. -/
  | viota (d : BitVec 4) (mk : BitVec 3) (ty : BitVec 4)
  /-- VMV (R211). Copies enabled elements of va. -/
  | vmv (d a : BitVec 4) (mk : BitVec 3) (ty : BitVec 4)
  /-- VSLIDE (R211). Slides elements by a signed 4-bit amount. -/
  | vslide (d a n : BitVec 4) (mk : BitVec 3) (ty : BitVec 4)
  /-- VCVT_F32_BF16 (R212). Narrows FP32 lanes to BF16. -/
  | vcvtF32Bf16 (d a : BitVec 4) (mk : BitVec 3)
  /-- VCVT_F32_F16 (R212). Narrows FP32 lanes to FP16. -/
  | vcvtF32F16 (d a : BitVec 4) (mk : BitVec 3)
  /-- VCVT_F32_E4M3 (R212). Narrows FP32 lanes to E4M3. -/
  | vcvtF32E4m3 (d a : BitVec 4) (mk : BitVec 3)
  /-- VCVT_F32_E5M2 (R212). Narrows FP32 lanes to E5M2. -/
  | vcvtF32E5m2 (d a : BitVec 4) (mk : BitVec 3)
  /-- VCVT_BF16_F32 (R212). Widens BF16 elements to FP32. -/
  | vcvtBf16F32 (d a : BitVec 4) (mk : BitVec 3)
  /-- VCVT_F16_F32 (R212). Widens FP16 elements to FP32. -/
  | vcvtF16F32 (d a : BitVec 4) (mk : BitVec 3)
  /-- VCVT_E4M3_F32 (R212). Widens E4M3 elements to FP32. -/
  | vcvtE4m3F32 (d a : BitVec 4) (mk : BitVec 3)
  /-- VCVT_E5M2_F32 (R212). Widens E5M2 elements to FP32. -/
  | vcvtE5m2F32 (d a : BitVec 4) (mk : BitVec 3)
  /-- VCVT_F32_I32 (R212). Converts FP32 lanes to saturated INT32. -/
  | vcvtF32I32 (d a : BitVec 4) (mk : BitVec 3)
  /-- VCVT_I32_F32 (R212). Converts INT32 lanes to FP32. -/
  | vcvtI32F32 (d a : BitVec 4) (mk : BitVec 3)
  /-- VCVT_I8_I32 (R212). Sign-extends INT8 elements to INT32. -/
  | vcvtI8I32 (d a : BitVec 4) (mk : BitVec 3)
  /-- VCVT_I32_I8 (R212). Saturates INT32 lanes to INT8. -/
  | vcvtI32I8 (d a : BitVec 4) (mk : BitVec 3)
  /-- VRSUM (R213). Sums enabled elements over a fixed tree into element 0. -/
  | vrsum (d a : BitVec 4) (mk : BitVec 3) (ty : BitVec 4)
  /-- VRMAX (R213). Tree maximum of enabled elements. -/
  | vrmax (d a : BitVec 4) (mk : BitVec 3) (ty : BitVec 4)
  /-- VRMIN (R213). Tree minimum of enabled elements. -/
  | vrmin (d a : BitVec 4) (mk : BitVec 3) (ty : BitVec 4)
  /-- VSCAN (R214). Sequential inclusive prefix sum of enabled elements. -/
  | vscan (d a : BitVec 4) (mk : BitVec 3) (ty : BitVec 4)
  /-- VTOPK (R215). Writes indices of enabled elements in descending value order. -/
  | vtopk (d a : BitVec 4) (mk : BitVec 3) (ty : BitVec 4)
  /-- MAND (R217). ANDs two mask registers. -/
  | mand (d a b : BitVec 3)
  /-- MOR (R217). ORs two mask registers. -/
  | mor (d a b : BitVec 3)
  /-- MXOR (R217). XORs two mask registers. -/
  | mxor (d a b : BitVec 3)
  /-- MNOT (R217). Inverts a mask register. -/
  | mnot (d a : BitVec 3)
  /-- MPOP (R217). Counts set mask bits below N. -/
  | mpop (d : BitVec 5) (b : BitVec 3) (ty : BitVec 4)
  /-- MFIRST (R217). Returns the index of the lowest set mask bit. -/
  | mfirst (d : BitVec 5) (b : BitVec 3) (ty : BitVec 4)
  /-- MSET (R217). Sets the low k bits of a mask register. -/
  | mset (d : BitVec 3) (kl kh : BitVec 4)
  /-- FADD (R218). Scalar FP32 add. -/
  | fadd (d a b : BitVec 5)
  /-- FSUB (R218). Scalar FP32 subtract. -/
  | fsub (d a b : BitVec 5)
  /-- FMUL (R218). Scalar FP32 multiply. -/
  | fmul (d a b : BitVec 5)
  /-- FDIV (R218). Scalar FP32 divide. -/
  | fdiv (d a b : BitVec 5)
  /-- FSQRT (R218). Scalar FP32 square root. -/
  | fsqrt (d a : BitVec 5)
  /-- FFMA (R218). Scalar FP32 fused multiply-add into xd. -/
  | ffma (d a b : BitVec 5)
  /-- FMIN (R218). Scalar FP32 minimum. -/
  | fmin (d a b : BitVec 5)
  /-- FMAX (R218). Scalar FP32 maximum. -/
  | fmax (d a b : BitVec 5)
  /-- FEQ (R218). Scalar FP32 equality compare. -/
  | feq (d a b : BitVec 5)
  /-- FLT (R218). Scalar FP32 less-than compare. -/
  | flt (d a b : BitVec 5)
  /-- FLE (R218). Scalar FP32 less-or-equal compare. -/
  | fle (d a b : BitVec 5)
  /-- FCLASS (R208). Scalar FP32 classification code. -/
  | fclass (d a : BitVec 5)
  /-- FEXP2 (R218). Scalar FP32 base-2 exponential. -/
  | fexp2 (d a : BitVec 5)
  /-- FLOG2 (R218). Scalar FP32 base-2 logarithm. -/
  | flog2 (d a : BitVec 5)
  /-- FCVTIF (R219). Converts an integer to FP32 under a conversion code. -/
  | fcvtif (d a code : BitVec 5)
  /-- FCVTFI (R219). Converts FP32 to a saturated integer under a conversion code. -/
  | fcvtfi (d a code : BitVec 5)
  /-- FCVTFF (R219). Converts between floating formats under a conversion code. -/
  | fcvtff (d a code : BitVec 5)
  deriving DecidableEq, Repr

end Sys2Proof
end

