-- ==== Sys2Proof/WellFormed.lean ====
section
/-!
DEFINITION. Which terms of `Instr` are well formed. For an encoded instruction this is what the decode checks of R64
order 3 leave beyond its fixed bits: an admitted ord (R31, R121, R122, R330), a scope code (R28, R348), an admitted ty
(R61, R204), a register limit that its chapter names (R50, R219, R220, R233, R261, R265, R303, R330), and a mode value
(R229, R232). For an event it is that its parameters name parts of the package (R9, R10).
-/
namespace Sys2Proof

/-- Scope codes 5 to 7 are reserved (R28). -/
def scopeOk (scope : BitVec 3) : Bool := decide (scope.toNat ≤ 4)
/-- The KV group admits scopes 3 and 4 (R348). -/
def kvScopeOk (scope : BitVec 3) : Bool := scope == 3 || scope == 4
/-- The ord codes an instruction admits (R31). -/
def ordIn (ord : BitVec 2) (l : List (BitVec 2)) : Bool := l.contains ord
/-- A returning ATOM admits every ord, a non-returning one 0 and 2 (R31). -/
def atomOrdOk (d : Reg) (ord : BitVec 2) : Bool := d != 0 || ordIn ord [0, 2]
/-- A register that begins a pair is not x31 (R220, R233, R261, R265, R303, R330). -/
def pairOk (r : Reg) : Bool := r != 31
/-- FP32, BF16, FP16 (R204). -/
def tyFloat (ty : BitVec 4) : Bool := decide (ty.toNat ≤ 2)
/-- INT32, INT16, INT8 (R204). -/
def tyInt (ty : BitVec 4) : Bool := decide (3 ≤ ty.toNat) && decide (ty.toNat ≤ 5)
/-- Types 0 to 5 (R61, R204). -/
def tyAny (ty : BitVec 4) : Bool := decide (ty.toNat ≤ 5)
/-- A cluster of the package, die * 36 + cluster (R9). -/
def clusterOk (cluster : Nat) : Bool := decide (cluster < 144)
/-- A core of the package, die * 1152 + cluster * 32 + core (R10). -/
def coreOk (core : Nat) : Bool := decide (core < 4608)
/-- A cluster SRAM bank, cluster * 32 + bank (R10). -/
def bankOk (bank : Nat) : Bool := decide (bank < 4608)
/-- A thread handle's cluster field is 0 to 35 (R9). -/
def clusterFieldOk (handle : Nat) : Bool := decide (handle / 512 % 64 < 36)
/-- The decode checks that remain on a term (R64 order 3), and the ranges of an event's parameters. -/
def Instr.wellFormed : Instr → Bool
  | .instructionFetch _ => true
  | .trapEntry _ => true
  | .trappingPeriodEnd _ => true
  | .loadDataReturn _ => true
  | .storeAccept _ => true
  | .divideComplete _ => true
  | .vectorAccessComplete _ => true
  | .mmaComplete _ => true
  | .mldMstComplete _ => true
  | .pageTableWalk _ _ _ => true
  | .rotationBoundary => true
  | .stealRequest core => coreOk core
  | .starvationPreemption core => coreOk core
  | .preemptionSave _ => true
  | .watchdogExpiry _ => true
  | .datapathCheckRetirement _ => true
  | .debugStep _ => true
  | .meetWindowEnd bank => bankOk bank
  | .meetEntryFree bank => bankOk bank
  | .bankModeChange bank => bankOk bank
  | .copyRequestAccept cluster => clusterOk cluster
  | .copyTransfer cluster => clusterOk cluster
  | .copyLoopIteration cluster => clusterOk cluster
  | .heldMailboxPosting core => coreOk core
  | .barrierPhaseComplete cluster id => clusterOk cluster && decide (id < 16)
  | .launchCompletion lctx => decide (lctx < 4096)
  | .coherentLineRequest core line _ => coreOk core && decide (line < 2 ^ 43)
  | .sliceAtomicPerform _ => true
  | .smergePerform _ => true
  | .stagedRecordAccept _ => true
  | .evaluationStart _ => true
  | .brokerRequest _ => true
  | .brokerFlagChange _ _ _ => true
  | .wfiTimeout _ => true
  | .waitmTimeout _ => true
  | .helbenNotification handle => decide (handle < 2 ^ 17) && clusterFieldOk handle
  | .doorbellRing cluster => clusterOk cluster
  | .hostBar2Read place n => match place with
    | .bar0 off => decide (0 < n) && decide (off + n ≤ 2 ^ 20)
    | .bar2 _ => decide (0 < n)
  | .hostBar2Write _ n _ => decide (0 < n)
  | .hostBar0Write off n _ => decide (0 < n) && decide (off + n ≤ 2 ^ 20)
  | .functionLevelReset => true
  | .conventionalReset => true
  | .linkFlitReplay flit => decide (flit.link < 16)
  | .linkResetRetrain link => decide (link < 16)
  | .remoteRequest dev _ _ => decide (dev < 256)
  | .remoteResponseTimeout _ => true
  | .partitionHalt pid _ _ => decide (pid < 256)
  | .haltLimitExpiry pid => decide (pid < 256)
  | .haltRemoteTimeout _ => true
  | .partitionSwap out load => decide (out < 256) && decide (load < 256)
  | .partitionRelease pid => decide (pid < 256)
  | .powerOnStartup _ => true
  | .firmwareUpdate _ _ => true
  | .firmwareConfirm => true
  | .powerSense die _ level => decide (die < 4) && decide (level ≤ 15)
  | .sensorSample _ => true
  | .dramScrub _ => true
  | .partRetirement _ => true
  | .launchReplay lctx => decide (lctx < 4096)
  | .controlRegisterWrite _ => true
  | .startupRetryCommand _ => true
  | .retirementLifted _ => true
  | .add _ _ _ => true
  | .sub _ _ _ => true
  | .and _ _ _ => true
  | .or _ _ _ => true
  | .xor _ _ _ => true
  | .andn _ _ _ => true
  | .orn _ _ _ => true
  | .xnor _ _ _ => true
  | .sll _ _ _ => true
  | .srl _ _ _ => true
  | .sra _ _ _ => true
  | .rol _ _ _ => true
  | .ror _ _ _ => true
  | .min _ _ _ => true
  | .max _ _ _ => true
  | .minn _ _ _ => true
  | .maxn _ _ _ => true
  | .slt _ _ _ => true
  | .sltn _ _ _ => true
  | .seq _ _ _ => true
  | .sne _ _ _ => true
  | .addw _ _ _ => true
  | .subw _ _ _ => true
  | .sllw _ _ _ => true
  | .srlw _ _ _ => true
  | .sraw _ _ _ => true
  | .mul _ _ _ => true
  | .mulh _ _ _ => true
  | .mulhn _ _ _ => true
  | .mulw _ _ _ => true
  | .div _ _ _ _ => true
  | .divn _ _ _ _ => true
  | .rem _ _ _ _ => true
  | .remn _ _ _ _ => true
  | .divw _ _ _ _ => true
  | .remw _ _ _ _ => true
  | .clz _ _ => true
  | .ctz _ _ => true
  | .popc _ _ => true
  | .brev _ _ => true
  | .bswap _ _ => true
  | .addi _ _ _ => true
  | .andi _ _ _ => true
  | .ori _ _ _ => true
  | .xori _ _ _ => true
  | .slti _ _ _ => true
  | .sltni _ _ _ => true
  | .slli _ _ _ => true
  | .srli _ _ _ => true
  | .srai _ _ _ => true
  | .roli _ _ _ => true
  | .rori _ _ _ => true
  | .bfx _ _ _ _ => true
  | .bfi _ _ _ _ => true
  | .lih _ _ => true
  | .addpc _ _ => true
  | .beq _ _ _ => true
  | .bne _ _ _ => true
  | .blt _ _ _ => true
  | .bge _ _ _ => true
  | .bltn _ _ _ => true
  | .bgen _ _ _ => true
  | .call _ _ => true
  | .jmpr _ _ _ => true
  | .lb _ _ _ _ => true
  | .lh _ _ _ _ => true
  | .lw _ _ _ _ => true
  | .ld _ _ _ _ => true
  | .lbn _ _ _ _ => true
  | .lhn _ _ _ _ => true
  | .lwn _ _ _ _ => true
  | .sb _ _ _ _ => true
  | .sh _ _ _ _ => true
  | .sw _ _ _ _ => true
  | .sd _ _ _ _ => true
  | .lwo _ _ _ ord scope => scopeOk scope && ordIn ord [0, 1]
  | .ldo _ _ _ ord scope => scopeOk scope && ordIn ord [0, 1]
  | .swo _ _ _ ord scope => scopeOk scope && ordIn ord [0, 2]
  | .sdo _ _ _ ord scope => scopeOk scope && ordIn ord [0, 2]
  | .fence _ scope => scopeOk scope
  | .pf _ _ scope => scopeOk scope
  | .ltag d _ _ ord scope => scopeOk scope && ordIn ord [0, 1] && pairOk d && d != 0
  | .susp _ _ _ scope => scopeOk scope
  | .resolve _ _ _ scope => scopeOk scope
  | .cfail _ _ _ scope => scopeOk scope
  | .cflush _ _ ord scope => scopeOk scope && ordIn ord [0, 2]
  | .cinv _ _ ord scope => scopeOk scope && ordIn ord [0, 2]
  | .aadd d _ scope ord _ _ => scopeOk scope && atomOrdOk d ord
  | .afadd d _ scope ord _ => scopeOk scope && atomOrdOk d ord
  | .aand d _ scope ord _ _ => scopeOk scope && atomOrdOk d ord
  | .aor d _ scope ord _ _ => scopeOk scope && atomOrdOk d ord
  | .axor d _ scope ord _ _ => scopeOk scope && atomOrdOk d ord
  | .amin d _ scope ord _ _ => scopeOk scope && atomOrdOk d ord
  | .amax d _ scope ord _ _ => scopeOk scope && atomOrdOk d ord
  | .aminn d _ scope ord _ _ => scopeOk scope && atomOrdOk d ord
  | .amaxn d _ scope ord _ _ => scopeOk scope && atomOrdOk d ord
  | .afmin d _ scope ord _ => scopeOk scope && atomOrdOk d ord
  | .afmax d _ scope ord _ => scopeOk scope && atomOrdOk d ord
  | .aswp d _ scope ord _ _ => scopeOk scope && atomOrdOk d ord
  | .acas d _ scope ord b _ => scopeOk scope && atomOrdOk d ord && pairOk b
  | .aaddo d _ scope ord _ _ => scopeOk scope && atomOrdOk d ord
  | .afaddo d _ scope ord _ => scopeOk scope && atomOrdOk d ord
  | .smerge d _ scope ord _ op => scopeOk scope && ordIn ord [0, 2] && decide (op.toNat ≤ 3) && decide (d.toNat + op.toNat ≤ 15)
  | .kvrsv _ _ scope => kvScopeOk scope
  | .kvtake _ _ scope => kvScopeOk scope
  | .kvgive _ _ scope => kvScopeOk scope
  | .kvshare _ _ scope => kvScopeOk scope
  | .kvrel _ _ scope => kvScopeOk scope
  | .kvpass _ _ scope => kvScopeOk scope
  | .kvcow _ _ scope => kvScopeOk scope
  | .kvscl _ _ scope => kvScopeOk scope
  | .meetC _ _ _ => true
  | .meetT _ _ _ => true
  | .mlive _ _ => true
  | .mclr _ _ => true
  | .mlog _ _ _ => true
  | .spawn _ _ => true
  | .spawnx _ _ _ => true
  | .cont _ _ _ => true
  | .retire _ => true
  | .launch _ _ => true
  | .yield _ => true
  | .send _ _ _ => true
  | .sendt _ _ _ => true
  | .waitm _ _ => true
  | .recv d => d != 0 && pairOk d
  | .peekm _ => true
  | .bara _ _ => true
  | .barw _ _ _ => true
  | .bar _ _ => true
  | .barex _ _ _ => true
  | .barcfg _ _ _ => true
  | .qres _ _ => true
  | .qpub _ _ => true
  | .qacq _ _ => true
  | .qrel _ _ => true
  | .bankcfg _ _ _ => true
  | .cpy _ a b => pairOk a && pairOk b
  | .cpyt _ _ => true
  | .csrr _ _ => true
  | .csrw _ _ _ => true
  | .csrs _ _ _ => true
  | .csrc _ _ _ => true
  | .ecall => true
  | .ebreak => true
  | .tret => true
  | .fencei => true
  | .tlbinv _ _ => true
  | .ctxout _ _ _ => true
  | .ctxin _ _ _ => true
  | .halt _ => true
  | .wfi _ _ => true
  | .vld _ _ _ _ _ => true
  | .vst _ _ _ _ _ => true
  | .vlds _ a _ _ _ => pairOk a
  | .vsts _ a _ _ _ => pairOk a
  | .vgath d _ _ _ _ => d != 15
  | .vscat d _ _ _ _ => d != 15
  | .vstq _ _ _ _ _ => true
  | .mmaE4m3 _ mode _ _ _ => mode != 3
  | .mmaE5m2 _ mode _ _ _ => mode != 3
  | .mmaE4m3e5m2 _ mode _ _ _ => mode != 3
  | .mmaE5m2e4m3 _ mode _ _ _ => mode != 3
  | .mmaBf16 _ mode _ _ _ => mode != 3
  | .mmaF16 _ mode _ _ _ => mode != 3
  | .mmaI8 _ mode _ _ _ => mode != 3
  | .mmaMint _ mode _ b _ => mode != 3 && pairOk b
  | .macqFp _ => true
  | .macqInt _ => true
  | .mrel _ => true
  | .mzero _ => true
  | .mcfg _ => true
  | .mld _ _ _ _ => true
  | .mst _ _ _ _ => true
  | .mrdv _ _ _ => true
  | .mwrv _ _ _ => true
  | .mflgFold => true
  | .mflgClear => true
  | .mflgRaise => true
  | .vadd _ _ _ _ ty => tyFloat ty
  | .vsub _ _ _ _ ty => tyFloat ty
  | .vmul _ _ _ _ ty => tyFloat ty
  | .vdiv _ _ _ _ ty => tyFloat ty
  | .vfma _ _ _ _ ty => tyFloat ty
  | .vfms _ _ _ _ ty => tyFloat ty
  | .vfnma _ _ _ _ ty => tyFloat ty
  | .vmin _ _ _ _ ty => tyFloat ty
  | .vmax _ _ _ _ ty => tyFloat ty
  | .vabs _ _ _ ty => tyFloat ty
  | .vneg _ _ _ ty => tyFloat ty
  | .vsqrt _ _ _ ty => tyFloat ty
  | .vrsq _ _ _ ty => tyFloat ty
  | .vrcp _ _ _ ty => tyFloat ty
  | .vexp2 _ _ _ ty => tyFloat ty
  | .vlog2 _ _ _ ty => tyFloat ty
  | .vclass _ _ _ ty => tyFloat ty
  | .viadd _ _ _ _ ty => tyInt ty
  | .visub _ _ _ _ ty => tyInt ty
  | .vimul _ _ _ _ ty => tyInt ty
  | .vand _ _ _ _ ty => tyInt ty
  | .vor _ _ _ _ ty => tyInt ty
  | .vxor _ _ _ _ ty => tyInt ty
  | .vsll _ _ _ _ ty => tyInt ty
  | .vsrl _ _ _ _ ty => tyInt ty
  | .vsra _ _ _ _ ty => tyInt ty
  | .vimin _ _ _ _ ty => tyInt ty
  | .vimax _ _ _ _ ty => tyInt ty
  | .viminn _ _ _ _ ty => tyInt ty
  | .vimaxn _ _ _ _ ty => tyInt ty
  | .vcmpEq _ _ _ _ ty => tyAny ty
  | .vcmpNe _ _ _ _ ty => tyAny ty
  | .vcmpLt _ _ _ _ ty => tyAny ty
  | .vcmpLe _ _ _ _ ty => tyAny ty
  | .vcmpUn _ _ _ _ ty => tyFloat ty
  | .vcmpLtn _ _ _ _ ty => tyInt ty
  | .vcmpLen _ _ _ _ ty => tyInt ty
  | .vsel _ _ _ _ ty => tyAny ty
  | .vperm _ _ _ _ ty => tyAny ty
  | .vbcast _ _ _ ty => tyAny ty
  | .vext _ _ _ ty => tyAny ty
  | .vins _ _ _ ty => tyAny ty
  | .viota _ _ ty => tyInt ty
  | .vmv _ _ _ ty => tyAny ty
  | .vslide _ _ _ _ ty => tyAny ty
  | .vcvtF32Bf16 _ _ _ => true
  | .vcvtF32F16 _ _ _ => true
  | .vcvtF32E4m3 _ _ _ => true
  | .vcvtF32E5m2 _ _ _ => true
  | .vcvtBf16F32 _ _ _ => true
  | .vcvtF16F32 _ _ _ => true
  | .vcvtE4m3F32 _ _ _ => true
  | .vcvtE5m2F32 _ _ _ => true
  | .vcvtF32I32 _ _ _ => true
  | .vcvtI32F32 _ _ _ => true
  | .vcvtI8I32 _ _ _ => true
  | .vcvtI32I8 _ _ _ => true
  | .vrsum _ _ _ ty => tyAny ty
  | .vrmax _ _ _ ty => tyAny ty
  | .vrmin _ _ _ ty => tyAny ty
  | .vscan _ _ _ ty => tyAny ty
  | .vtopk _ _ _ ty => tyAny ty
  | .mand _ _ _ => true
  | .mor _ _ _ => true
  | .mxor _ _ _ => true
  | .mnot _ _ => true
  | .mpop _ _ ty => tyAny ty
  | .mfirst _ _ ty => tyAny ty
  | .mset _ _ _ => true
  | .fadd _ _ _ => true
  | .fsub _ _ _ => true
  | .fmul _ _ _ => true
  | .fdiv _ _ _ => true
  | .fsqrt _ _ => true
  | .ffma _ _ _ => true
  | .fmin _ _ _ => true
  | .fmax _ _ _ => true
  | .feq _ _ _ => true
  | .flt _ _ _ => true
  | .fle _ _ _ => true
  | .fclass _ _ => true
  | .fexp2 _ _ => true
  | .flog2 _ _ => true
  | .fcvtif _ _ code => decide (code.toNat ≤ 3)
  | .fcvtfi _ _ code => decide (code.toNat ≤ 3)
  | .fcvtff _ _ code => decide (code.toNat ≤ 7)

end Sys2Proof
end

