-- ==== Sys2Proof/Decode.lean ====
section
/-!
DEFINITION. The decoder of a 32-bit instruction word (03_word R45 to R51, R59, R61, R64, R65), total on every word: it
answers an instruction or the decode error that traps (orders 2 and 3 of R64); after it the encoder, written from the
same formats.
-/
namespace Sys2Proof

/-- Why a word is no instruction: ILLEGAL_OPCODE (order 2 of R64) or RESERVED_FIELD (order 3). -/
inductive DecodeError where
  | illegalOpcode
  | reservedField
  deriving DecidableEq, Repr

/-- The n-bit field of a word whose lowest bit is lo. -/
def f (w : BitVec 32) (lo n : Nat) : BitVec n := w.extractLsb' lo n

/-- The row selected by major and selector: its fixed bits (R65) and its remaining checks (R64 order 3). -/
def row (w pattern mask : BitVec 32) (i : Instr) : Except DecodeError Instr :=
  if w &&& mask = pattern ∧ i.wellFormed = true then .ok i else .error .reservedField

/-- Major 0x01 (R59): the selector is bits [27:22]. -/
def decodeAlu (w : BitVec 32) : Except DecodeError Instr :=
  match (f w 22 6).toNat with
  | 0 => row w 0x00000001 0xFFC0007F (.add (f w 7 5) (f w 12 5) (f w 17 5))
  | 1 => row w 0x00400001 0xFFC0007F (.sub (f w 7 5) (f w 12 5) (f w 17 5))
  | 2 => row w 0x00800001 0xFFC0007F (.and (f w 7 5) (f w 12 5) (f w 17 5))
  | 3 => row w 0x00C00001 0xFFC0007F (.or (f w 7 5) (f w 12 5) (f w 17 5))
  | 4 => row w 0x01000001 0xFFC0007F (.xor (f w 7 5) (f w 12 5) (f w 17 5))
  | 5 => row w 0x01400001 0xFFC0007F (.andn (f w 7 5) (f w 12 5) (f w 17 5))
  | 6 => row w 0x01800001 0xFFC0007F (.orn (f w 7 5) (f w 12 5) (f w 17 5))
  | 7 => row w 0x01C00001 0xFFC0007F (.xnor (f w 7 5) (f w 12 5) (f w 17 5))
  | 8 => row w 0x02000001 0xFFC0007F (.sll (f w 7 5) (f w 12 5) (f w 17 5))
  | 9 => row w 0x02400001 0xFFC0007F (.srl (f w 7 5) (f w 12 5) (f w 17 5))
  | 10 => row w 0x02800001 0xFFC0007F (.sra (f w 7 5) (f w 12 5) (f w 17 5))
  | 11 => row w 0x02C00001 0xFFC0007F (.rol (f w 7 5) (f w 12 5) (f w 17 5))
  | 12 => row w 0x03000001 0xFFC0007F (.ror (f w 7 5) (f w 12 5) (f w 17 5))
  | 13 => row w 0x03400001 0xFFC0007F (.min (f w 7 5) (f w 12 5) (f w 17 5))
  | 14 => row w 0x03800001 0xFFC0007F (.max (f w 7 5) (f w 12 5) (f w 17 5))
  | 15 => row w 0x03C00001 0xFFC0007F (.minn (f w 7 5) (f w 12 5) (f w 17 5))
  | 16 => row w 0x04000001 0xFFC0007F (.maxn (f w 7 5) (f w 12 5) (f w 17 5))
  | 17 => row w 0x04400001 0xFFC0007F (.slt (f w 7 5) (f w 12 5) (f w 17 5))
  | 18 => row w 0x04800001 0xFFC0007F (.sltn (f w 7 5) (f w 12 5) (f w 17 5))
  | 19 => row w 0x04C00001 0xFFC0007F (.seq (f w 7 5) (f w 12 5) (f w 17 5))
  | 20 => row w 0x05000001 0xFFC0007F (.sne (f w 7 5) (f w 12 5) (f w 17 5))
  | 21 => row w 0x05400001 0xFFC0007F (.addw (f w 7 5) (f w 12 5) (f w 17 5))
  | 22 => row w 0x05800001 0xFFC0007F (.subw (f w 7 5) (f w 12 5) (f w 17 5))
  | 23 => row w 0x05C00001 0xFFC0007F (.sllw (f w 7 5) (f w 12 5) (f w 17 5))
  | 24 => row w 0x06000001 0xFFC0007F (.srlw (f w 7 5) (f w 12 5) (f w 17 5))
  | 25 => row w 0x06400001 0xFFC0007F (.sraw (f w 7 5) (f w 12 5) (f w 17 5))
  | _ => .error .illegalOpcode

/-- Major 0x02 (R59): the selector is bits [27:22]. -/
def decodeMulDiv (w : BitVec 32) : Except DecodeError Instr :=
  match (f w 22 6).toNat with
  | 0 => row w 0x00000002 0xFFC0007F (.mul (f w 7 5) (f w 12 5) (f w 17 5))
  | 1 => row w 0x00400002 0xFFC0007F (.mulh (f w 7 5) (f w 12 5) (f w 17 5))
  | 2 => row w 0x00800002 0xFFC0007F (.mulhn (f w 7 5) (f w 12 5) (f w 17 5))
  | 3 => row w 0x00C00002 0xFFC0007F (.mulw (f w 7 5) (f w 12 5) (f w 17 5))
  | 4 => row w 0x01000002 0x0FC0007F (.div (f w 7 5) (f w 12 5) (f w 17 5) (f w 28 4))
  | 5 => row w 0x01400002 0x0FC0007F (.divn (f w 7 5) (f w 12 5) (f w 17 5) (f w 28 4))
  | 6 => row w 0x01800002 0x0FC0007F (.rem (f w 7 5) (f w 12 5) (f w 17 5) (f w 28 4))
  | 7 => row w 0x01C00002 0x0FC0007F (.remn (f w 7 5) (f w 12 5) (f w 17 5) (f w 28 4))
  | 8 => row w 0x02000002 0x0FC0007F (.divw (f w 7 5) (f w 12 5) (f w 17 5) (f w 28 4))
  | 9 => row w 0x02400002 0x0FC0007F (.remw (f w 7 5) (f w 12 5) (f w 17 5) (f w 28 4))
  | _ => .error .illegalOpcode

/-- Major 0x03 (R59): the selector is bits [27:22]. -/
def decodeBits (w : BitVec 32) : Except DecodeError Instr :=
  match (f w 22 6).toNat with
  | 0 => row w 0x00000003 0xFFFE007F (.clz (f w 7 5) (f w 12 5))
  | 1 => row w 0x00400003 0xFFFE007F (.ctz (f w 7 5) (f w 12 5))
  | 2 => row w 0x00800003 0xFFFE007F (.popc (f w 7 5) (f w 12 5))
  | 3 => row w 0x00C00003 0xFFFE007F (.brev (f w 7 5) (f w 12 5))
  | 4 => row w 0x01000003 0xFFFE007F (.bswap (f w 7 5) (f w 12 5))
  | _ => .error .illegalOpcode

/-- Major 0x0A (R59): the selector is bits [31:29]. -/
def decodeShift (w : BitVec 32) : Except DecodeError Instr :=
  match (f w 29 3).toNat with
  | 0 => row w 0x0000000A 0xFF80007F (.slli (f w 7 5) (f w 12 5) (f w 17 6))
  | 1 => row w 0x2000000A 0xFF80007F (.srli (f w 7 5) (f w 12 5) (f w 17 6))
  | 2 => row w 0x4000000A 0xFF80007F (.srai (f w 7 5) (f w 12 5) (f w 17 6))
  | 3 => row w 0x6000000A 0xFF80007F (.roli (f w 7 5) (f w 12 5) (f w 17 6))
  | 4 => row w 0x8000000A 0xFF80007F (.rori (f w 7 5) (f w 12 5) (f w 17 6))
  | _ => .error .illegalOpcode

/-- Major 0x10 (R59): the selector is bits [19:17]. -/
def decodeBranch (w : BitVec 32) : Except DecodeError Instr :=
  match (f w 17 3).toNat with
  | 0 => row w 0x00000010 0x000E007F (.beq (f w 7 5) (f w 12 5) (f w 20 12))
  | 1 => row w 0x00020010 0x000E007F (.bne (f w 7 5) (f w 12 5) (f w 20 12))
  | 2 => row w 0x00040010 0x000E007F (.blt (f w 7 5) (f w 12 5) (f w 20 12))
  | 3 => row w 0x00060010 0x000E007F (.bge (f w 7 5) (f w 12 5) (f w 20 12))
  | 4 => row w 0x00080010 0x000E007F (.bltn (f w 7 5) (f w 12 5) (f w 20 12))
  | 5 => row w 0x000A0010 0x000E007F (.bgen (f w 7 5) (f w 12 5) (f w 20 12))
  | _ => .error .illegalOpcode

/-- Major 0x1F (R59): the selector is bits [31:26]. -/
def decodeOrd (w : BitVec 32) : Except DecodeError Instr :=
  match (f w 26 6).toNat with
  | 0 => row w 0x0000001F 0xFC00007F (.lwo (f w 7 5) (f w 12 5) (f w 17 4) (f w 21 2) (f w 23 3))
  | 1 => row w 0x0400001F 0xFC00007F (.ldo (f w 7 5) (f w 12 5) (f w 17 4) (f w 21 2) (f w 23 3))
  | 2 => row w 0x0800001F 0xFC00007F (.swo (f w 7 5) (f w 12 5) (f w 17 4) (f w 21 2) (f w 23 3))
  | 3 => row w 0x0C00001F 0xFC00007F (.sdo (f w 7 5) (f w 12 5) (f w 17 4) (f w 21 2) (f w 23 3))
  | 4 => row w 0x1000001F 0xFC1FFFFF (.fence (f w 21 2) (f w 23 3))
  | 5 => row w 0x1400001F 0xFC600FFF (.pf (f w 12 5) (f w 17 4) (f w 23 3))
  | 6 => row w 0x1800001F 0xFC00007F (.ltag (f w 7 5) (f w 12 5) (f w 17 4) (f w 21 2) (f w 23 3))
  | 7 => row w 0x1C00001F 0xFC60007F (.susp (f w 7 5) (f w 12 5) (f w 17 4) (f w 23 3))
  | 8 => row w 0x2000001F 0xFC60007F (.resolve (f w 7 5) (f w 12 5) (f w 17 4) (f w 23 3))
  | 9 => row w 0x2400001F 0xFC60007F (.cfail (f w 7 5) (f w 12 5) (f w 17 4) (f w 23 3))
  | 10 => row w 0x2800001F 0xFC000FFF (.cflush (f w 12 5) (f w 17 4) (f w 21 2) (f w 23 3))
  | 11 => row w 0x2C00001F 0xFC000FFF (.cinv (f w 12 5) (f w 17 4) (f w 21 2) (f w 23 3))
  | _ => .error .illegalOpcode

/-- Major 0x20 (R59): the selector is bits [30:27]. -/
def decodeAtom (w : BitVec 32) : Except DecodeError Instr :=
  match (f w 27 4).toNat with
  | 0 => row w 0x00000020 0x7800007F (.aadd (f w 7 5) (f w 12 5) (f w 17 3) (f w 20 2) (f w 22 5) (f w 31 1))
  | 1 => if f w 31 1 = 1 then row w 0x88000020 0xF800007F (.afadd (f w 7 5) (f w 12 5) (f w 17 3) (f w 20 2) (f w 22 5)) else .error .illegalOpcode
  | 2 => row w 0x10000020 0x7800007F (.aand (f w 7 5) (f w 12 5) (f w 17 3) (f w 20 2) (f w 22 5) (f w 31 1))
  | 3 => row w 0x18000020 0x7800007F (.aor (f w 7 5) (f w 12 5) (f w 17 3) (f w 20 2) (f w 22 5) (f w 31 1))
  | 4 => row w 0x20000020 0x7800007F (.axor (f w 7 5) (f w 12 5) (f w 17 3) (f w 20 2) (f w 22 5) (f w 31 1))
  | 5 => row w 0x28000020 0x7800007F (.amin (f w 7 5) (f w 12 5) (f w 17 3) (f w 20 2) (f w 22 5) (f w 31 1))
  | 6 => row w 0x30000020 0x7800007F (.amax (f w 7 5) (f w 12 5) (f w 17 3) (f w 20 2) (f w 22 5) (f w 31 1))
  | 7 => row w 0x38000020 0x7800007F (.aminn (f w 7 5) (f w 12 5) (f w 17 3) (f w 20 2) (f w 22 5) (f w 31 1))
  | 8 => row w 0x40000020 0x7800007F (.amaxn (f w 7 5) (f w 12 5) (f w 17 3) (f w 20 2) (f w 22 5) (f w 31 1))
  | 9 => if f w 31 1 = 1 then row w 0xC8000020 0xF800007F (.afmin (f w 7 5) (f w 12 5) (f w 17 3) (f w 20 2) (f w 22 5)) else .error .illegalOpcode
  | 10 => if f w 31 1 = 1 then row w 0xD0000020 0xF800007F (.afmax (f w 7 5) (f w 12 5) (f w 17 3) (f w 20 2) (f w 22 5)) else .error .illegalOpcode
  | 11 => row w 0x58000020 0x7800007F (.aswp (f w 7 5) (f w 12 5) (f w 17 3) (f w 20 2) (f w 22 5) (f w 31 1))
  | 12 => row w 0x60000020 0x7800007F (.acas (f w 7 5) (f w 12 5) (f w 17 3) (f w 20 2) (f w 22 5) (f w 31 1))
  | 13 => row w 0x68000020 0x7800007F (.aaddo (f w 7 5) (f w 12 5) (f w 17 3) (f w 20 2) (f w 22 5) (f w 31 1))
  | 14 => if f w 31 1 = 1 then row w 0xF0000020 0xF800007F (.afaddo (f w 7 5) (f w 12 5) (f w 17 3) (f w 20 2) (f w 22 5)) else .error .illegalOpcode
  | _ => .error .illegalOpcode

/-- Major 0x22 (R59): the selector is bits [31:26]. -/
def decodeKv (w : BitVec 32) : Except DecodeError Instr :=
  match (f w 26 6).toNat with
  | 0 => row w 0x00000022 0xFC7E007F (.kvrsv (f w 7 5) (f w 12 5) (f w 23 3))
  | 1 => row w 0x04000022 0xFC7E007F (.kvtake (f w 7 5) (f w 12 5) (f w 23 3))
  | 2 => row w 0x08000022 0xFC7E007F (.kvgive (f w 7 5) (f w 12 5) (f w 23 3))
  | 3 => row w 0x0C000022 0xFC7E007F (.kvshare (f w 7 5) (f w 12 5) (f w 23 3))
  | 4 => row w 0x10000022 0xFC7E007F (.kvrel (f w 7 5) (f w 12 5) (f w 23 3))
  | 5 => row w 0x14000022 0xFC7E007F (.kvpass (f w 7 5) (f w 12 5) (f w 23 3))
  | 6 => row w 0x18000022 0xFC7E007F (.kvcow (f w 7 5) (f w 12 5) (f w 23 3))
  | 7 => row w 0x1C000022 0xFC7E007F (.kvscl (f w 7 5) (f w 12 5) (f w 23 3))
  | _ => .error .illegalOpcode

/-- Major 0x24 (R59): the selector is bits [27:22]. -/
def decodeMeet (w : BitVec 32) : Except DecodeError Instr :=
  match (f w 22 6).toNat with
  | 0 => row w 0x00000024 0xFFC0007F (.meetC (f w 7 5) (f w 12 5) (f w 17 5))
  | 1 => row w 0x00400024 0xFFC0007F (.meetT (f w 7 5) (f w 12 5) (f w 17 5))
  | 2 => row w 0x00800024 0xFFFE007F (.mlive (f w 7 5) (f w 12 5))
  | 3 => row w 0x00C00024 0xFFFE007F (.mclr (f w 7 5) (f w 12 5))
  | 4 => row w 0x01000024 0xFFC0007F (.mlog (f w 7 5) (f w 12 5) (f w 17 5))
  | _ => .error .illegalOpcode

/-- Major 0x25 (R59): the selector is bits [27:22]. -/
def decodeTask (w : BitVec 32) : Except DecodeError Instr :=
  match (f w 22 6).toNat with
  | 0 => row w 0x00000025 0xFFFE007F (.spawn (f w 7 5) (f w 12 5))
  | 1 => row w 0x00400025 0xFFC0007F (.spawnx (f w 7 5) (f w 12 5) (f w 17 5))
  | 2 => row w 0x00800025 0xFFC0007F (.cont (f w 7 5) (f w 12 5) (f w 17 5))
  | 3 => row w 0x00C00025 0xFFFE0FFF (.retire (f w 12 5))
  | 4 => row w 0x01000025 0xFFFE007F (.launch (f w 7 5) (f w 12 5))
  | 5 => row w 0x01400025 0xFFFFF07F (.yield (f w 7 5))
  | _ => .error .illegalOpcode

/-- Major 0x26 (R59): the selector is bits [27:22]. -/
def decodeSig (w : BitVec 32) : Except DecodeError Instr :=
  match (f w 22 6).toNat with
  | 0 => row w 0x00000026 0xFFC0007F (.send (f w 7 5) (f w 12 5) (f w 17 5))
  | 1 => row w 0x00400026 0xFFC0007F (.sendt (f w 7 5) (f w 12 5) (f w 17 5))
  | 2 => row w 0x00800026 0xFFFE007F (.waitm (f w 7 5) (f w 12 5))
  | 3 => row w 0x00C00026 0xFFFFF07F (.recv (f w 7 5))
  | 4 => row w 0x01000026 0xFFFFF07F (.peekm (f w 7 5))
  | 5 => row w 0x01400026 0xFFFE007F (.bara (f w 7 5) (f w 12 5))
  | 6 => row w 0x01800026 0xFFC0007F (.barw (f w 7 5) (f w 12 5) (f w 17 5))
  | 7 => row w 0x01C00026 0xFFFE007F (.bar (f w 7 5) (f w 12 5))
  | 8 => row w 0x02000026 0xFFC0007F (.barex (f w 7 5) (f w 12 5) (f w 17 5))
  | 9 => row w 0x02400026 0xFFC0007F (.barcfg (f w 7 5) (f w 12 5) (f w 17 5))
  | 10 => row w 0x02800026 0xFFFE007F (.qres (f w 7 5) (f w 12 5))
  | 11 => row w 0x02C00026 0xFFFE007F (.qpub (f w 7 5) (f w 12 5))
  | 12 => row w 0x03000026 0xFFFE007F (.qacq (f w 7 5) (f w 12 5))
  | 13 => row w 0x03400026 0xFFFE007F (.qrel (f w 7 5) (f w 12 5))
  | 14 => row w 0x03800026 0xFFC0007F (.bankcfg (f w 7 5) (f w 12 5) (f w 17 5))
  | _ => .error .illegalOpcode

/-- Major 0x27 (R59): the selector is bits [27:22]. -/
def decodeCopy (w : BitVec 32) : Except DecodeError Instr :=
  match (f w 22 6).toNat with
  | 0 => row w 0x00000027 0xFFC0007F (.cpy (f w 7 5) (f w 12 5) (f w 17 5))
  | 1 => row w 0x00400027 0xFFFE007F (.cpyt (f w 7 5) (f w 12 5))
  | _ => .error .illegalOpcode

/-- Major 0x28 (R59): the selector is bits [19:17]. -/
def decodeCsr (w : BitVec 32) : Except DecodeError Instr :=
  match (f w 17 3).toNat with
  | 0 => row w 0x00000028 0x000FF07F (.csrr (f w 7 5) (f w 20 12))
  | 1 => row w 0x00020028 0x000E007F (.csrw (f w 7 5) (f w 12 5) (f w 20 12))
  | 2 => row w 0x00040028 0x000E007F (.csrs (f w 7 5) (f w 12 5) (f w 20 12))
  | 3 => row w 0x00060028 0x000E007F (.csrc (f w 7 5) (f w 12 5) (f w 20 12))
  | _ => .error .illegalOpcode

/-- Major 0x29 (R59): the selector is bits [27:22]. -/
def decodePriv (w : BitVec 32) : Except DecodeError Instr :=
  match (f w 22 6).toNat with
  | 0 => row w 0x00000029 0xFFFFFFFF (.ecall)
  | 1 => row w 0x00400029 0xFFFFFFFF (.ebreak)
  | 2 => row w 0x00800029 0xFFFFFFFF (.tret)
  | 3 => row w 0x00C00029 0xFFFFFFFF (.fencei)
  | 4 => row w 0x01000029 0xFFC00FFF (.tlbinv (f w 12 5) (f w 17 5))
  | 5 => row w 0x01400029 0xFFC0007F (.ctxout (f w 7 5) (f w 12 5) (f w 17 5))
  | 6 => row w 0x01800029 0xFFC0007F (.ctxin (f w 7 5) (f w 12 5) (f w 17 5))
  | 7 => row w 0x01C00029 0xFFFE0FFF (.halt (f w 12 5))
  | 8 => row w 0x02000029 0xFFFE007F (.wfi (f w 7 5) (f w 12 5))
  | _ => .error .illegalOpcode

/-- Major 0x30 (R59): the selector is bits [27:22]. -/
noncomputable def decodeVfp (w : BitVec 32) : Except DecodeError Instr :=
  match (f w 22 6).toNat with
  | 0 => row w 0x00000030 0x0FC0007F (.vadd (f w 7 4) (f w 11 4) (f w 15 4) (f w 19 3) (f w 28 4))
  | 1 => row w 0x00400030 0x0FC0007F (.vsub (f w 7 4) (f w 11 4) (f w 15 4) (f w 19 3) (f w 28 4))
  | 2 => row w 0x00800030 0x0FC0007F (.vmul (f w 7 4) (f w 11 4) (f w 15 4) (f w 19 3) (f w 28 4))
  | 3 => row w 0x00C00030 0x0FC0007F (.vdiv (f w 7 4) (f w 11 4) (f w 15 4) (f w 19 3) (f w 28 4))
  | 4 => row w 0x01000030 0x0FC0007F (.vfma (f w 7 4) (f w 11 4) (f w 15 4) (f w 19 3) (f w 28 4))
  | 5 => row w 0x01400030 0x0FC0007F (.vfms (f w 7 4) (f w 11 4) (f w 15 4) (f w 19 3) (f w 28 4))
  | 6 => row w 0x01800030 0x0FC0007F (.vfnma (f w 7 4) (f w 11 4) (f w 15 4) (f w 19 3) (f w 28 4))
  | 7 => row w 0x01C00030 0x0FC0007F (.vmin (f w 7 4) (f w 11 4) (f w 15 4) (f w 19 3) (f w 28 4))
  | 8 => row w 0x02000030 0x0FC0007F (.vmax (f w 7 4) (f w 11 4) (f w 15 4) (f w 19 3) (f w 28 4))
  | 9 => row w 0x02400030 0x0FC7807F (.vabs (f w 7 4) (f w 11 4) (f w 19 3) (f w 28 4))
  | 10 => row w 0x02800030 0x0FC7807F (.vneg (f w 7 4) (f w 11 4) (f w 19 3) (f w 28 4))
  | 11 => row w 0x02C00030 0x0FC7807F (.vsqrt (f w 7 4) (f w 11 4) (f w 19 3) (f w 28 4))
  | 12 => row w 0x03000030 0x0FC7807F (.vrsq (f w 7 4) (f w 11 4) (f w 19 3) (f w 28 4))
  | 13 => row w 0x03400030 0x0FC7807F (.vrcp (f w 7 4) (f w 11 4) (f w 19 3) (f w 28 4))
  | 14 => row w 0x03800030 0x0FC7807F (.vexp2 (f w 7 4) (f w 11 4) (f w 19 3) (f w 28 4))
  | 15 => row w 0x03C00030 0x0FC7807F (.vlog2 (f w 7 4) (f w 11 4) (f w 19 3) (f w 28 4))
  | 16 => row w 0x04000030 0x0FC7807F (.vclass (f w 7 4) (f w 11 4) (f w 19 3) (f w 28 4))
  | _ => .error .illegalOpcode

/-- Major 0x31 (R59): the selector is bits [27:22]. -/
noncomputable def decodeVint (w : BitVec 32) : Except DecodeError Instr :=
  match (f w 22 6).toNat with
  | 0 => row w 0x00000031 0x0FC0007F (.viadd (f w 7 4) (f w 11 4) (f w 15 4) (f w 19 3) (f w 28 4))
  | 1 => row w 0x00400031 0x0FC0007F (.visub (f w 7 4) (f w 11 4) (f w 15 4) (f w 19 3) (f w 28 4))
  | 2 => row w 0x00800031 0x0FC0007F (.vimul (f w 7 4) (f w 11 4) (f w 15 4) (f w 19 3) (f w 28 4))
  | 3 => row w 0x00C00031 0x0FC0007F (.vand (f w 7 4) (f w 11 4) (f w 15 4) (f w 19 3) (f w 28 4))
  | 4 => row w 0x01000031 0x0FC0007F (.vor (f w 7 4) (f w 11 4) (f w 15 4) (f w 19 3) (f w 28 4))
  | 5 => row w 0x01400031 0x0FC0007F (.vxor (f w 7 4) (f w 11 4) (f w 15 4) (f w 19 3) (f w 28 4))
  | 6 => row w 0x01800031 0x0FC0007F (.vsll (f w 7 4) (f w 11 4) (f w 15 4) (f w 19 3) (f w 28 4))
  | 7 => row w 0x01C00031 0x0FC0007F (.vsrl (f w 7 4) (f w 11 4) (f w 15 4) (f w 19 3) (f w 28 4))
  | 8 => row w 0x02000031 0x0FC0007F (.vsra (f w 7 4) (f w 11 4) (f w 15 4) (f w 19 3) (f w 28 4))
  | 9 => row w 0x02400031 0x0FC0007F (.vimin (f w 7 4) (f w 11 4) (f w 15 4) (f w 19 3) (f w 28 4))
  | 10 => row w 0x02800031 0x0FC0007F (.vimax (f w 7 4) (f w 11 4) (f w 15 4) (f w 19 3) (f w 28 4))
  | 11 => row w 0x02C00031 0x0FC0007F (.viminn (f w 7 4) (f w 11 4) (f w 15 4) (f w 19 3) (f w 28 4))
  | 12 => row w 0x03000031 0x0FC0007F (.vimaxn (f w 7 4) (f w 11 4) (f w 15 4) (f w 19 3) (f w 28 4))
  | _ => .error .illegalOpcode

/-- Major 0x32 (R59): the selector is bits [27:22]. -/
noncomputable def decodeVcmp (w : BitVec 32) : Except DecodeError Instr :=
  match (f w 22 6).toNat with
  | 0 => row w 0x00000032 0x0FC0047F (.vcmpEq (f w 7 3) (f w 11 4) (f w 15 4) (f w 19 3) (f w 28 4))
  | 1 => row w 0x00400032 0x0FC0047F (.vcmpNe (f w 7 3) (f w 11 4) (f w 15 4) (f w 19 3) (f w 28 4))
  | 2 => row w 0x00800032 0x0FC0047F (.vcmpLt (f w 7 3) (f w 11 4) (f w 15 4) (f w 19 3) (f w 28 4))
  | 3 => row w 0x00C00032 0x0FC0047F (.vcmpLe (f w 7 3) (f w 11 4) (f w 15 4) (f w 19 3) (f w 28 4))
  | 4 => row w 0x01000032 0x0FC0047F (.vcmpUn (f w 7 3) (f w 11 4) (f w 15 4) (f w 19 3) (f w 28 4))
  | 5 => row w 0x01400032 0x0FC0047F (.vcmpLtn (f w 7 3) (f w 11 4) (f w 15 4) (f w 19 3) (f w 28 4))
  | 6 => row w 0x01800032 0x0FC0047F (.vcmpLen (f w 7 3) (f w 11 4) (f w 15 4) (f w 19 3) (f w 28 4))
  | _ => .error .illegalOpcode

/-- Major 0x33 (R59): the selector is bits [27:22]. -/
noncomputable def decodeVmove (w : BitVec 32) : Except DecodeError Instr :=
  match (f w 22 6).toNat with
  | 0 => row w 0x00000033 0x0FC0007F (.vsel (f w 7 4) (f w 11 4) (f w 15 4) (f w 19 3) (f w 28 4))
  | 1 => row w 0x00400033 0x0FC0007F (.vperm (f w 7 4) (f w 11 4) (f w 15 4) (f w 19 3) (f w 28 4))
  | 2 => row w 0x00800033 0x0FC7007F (.vbcast (f w 7 4) (f w 11 5) (f w 19 3) (f w 28 4))
  | 3 => row w 0x00C00033 0x0FC0707F (.vext (f w 7 5) (f w 15 4) (f w 19 3) (f w 28 4))
  | 4 => row w 0x01000033 0x0FC7007F (.vins (f w 7 4) (f w 11 5) (f w 19 3) (f w 28 4))
  | 5 => row w 0x01400033 0x0FC7F87F (.viota (f w 7 4) (f w 19 3) (f w 28 4))
  | 6 => row w 0x01800033 0x0FC7807F (.vmv (f w 7 4) (f w 11 4) (f w 19 3) (f w 28 4))
  | 7 => row w 0x01C00033 0x0FC0007F (.vslide (f w 7 4) (f w 11 4) (f w 15 4) (f w 19 3) (f w 28 4))
  | _ => .error .illegalOpcode

/-- Major 0x34 (R59): the selector is bits [27:22]. -/
noncomputable def decodeVcvt (w : BitVec 32) : Except DecodeError Instr :=
  match (f w 22 6).toNat with
  | 0 => row w 0x00000034 0xFFC7807F (.vcvtF32Bf16 (f w 7 4) (f w 11 4) (f w 19 3))
  | 1 => row w 0x00400034 0xFFC7807F (.vcvtF32F16 (f w 7 4) (f w 11 4) (f w 19 3))
  | 2 => row w 0x00800034 0xFFC7807F (.vcvtF32E4m3 (f w 7 4) (f w 11 4) (f w 19 3))
  | 3 => row w 0x00C00034 0xFFC7807F (.vcvtF32E5m2 (f w 7 4) (f w 11 4) (f w 19 3))
  | 4 => row w 0x01000034 0xFFC7807F (.vcvtBf16F32 (f w 7 4) (f w 11 4) (f w 19 3))
  | 5 => row w 0x01400034 0xFFC7807F (.vcvtF16F32 (f w 7 4) (f w 11 4) (f w 19 3))
  | 6 => row w 0x01800034 0xFFC7807F (.vcvtE4m3F32 (f w 7 4) (f w 11 4) (f w 19 3))
  | 7 => row w 0x01C00034 0xFFC7807F (.vcvtE5m2F32 (f w 7 4) (f w 11 4) (f w 19 3))
  | 8 => row w 0x02000034 0xFFC7807F (.vcvtF32I32 (f w 7 4) (f w 11 4) (f w 19 3))
  | 9 => row w 0x02400034 0xFFC7807F (.vcvtI32F32 (f w 7 4) (f w 11 4) (f w 19 3))
  | 10 => row w 0x02800034 0xFFC7807F (.vcvtI8I32 (f w 7 4) (f w 11 4) (f w 19 3))
  | 11 => row w 0x02C00034 0xFFC7807F (.vcvtI32I8 (f w 7 4) (f w 11 4) (f w 19 3))
  | _ => .error .illegalOpcode

/-- Major 0x35 (R59): the selector is bits [27:22]. -/
noncomputable def decodeVred (w : BitVec 32) : Except DecodeError Instr :=
  match (f w 22 6).toNat with
  | 0 => row w 0x00000035 0x0FC7807F (.vrsum (f w 7 4) (f w 11 4) (f w 19 3) (f w 28 4))
  | 1 => row w 0x00400035 0x0FC7807F (.vrmax (f w 7 4) (f w 11 4) (f w 19 3) (f w 28 4))
  | 2 => row w 0x00800035 0x0FC7807F (.vrmin (f w 7 4) (f w 11 4) (f w 19 3) (f w 28 4))
  | 3 => row w 0x00C00035 0x0FC7807F (.vscan (f w 7 4) (f w 11 4) (f w 19 3) (f w 28 4))
  | 4 => row w 0x01000035 0x0FC7807F (.vtopk (f w 7 4) (f w 11 4) (f w 19 3) (f w 28 4))
  | _ => .error .illegalOpcode

/-- Major 0x36 (R59): the selector is bits [27:22]. -/
noncomputable def decodeMask (w : BitVec 32) : Except DecodeError Instr :=
  match (f w 22 6).toNat with
  | 0 => row w 0x00000036 0xFFFC447F (.mand (f w 7 3) (f w 11 3) (f w 15 3))
  | 1 => row w 0x00400036 0xFFFC447F (.mor (f w 7 3) (f w 11 3) (f w 15 3))
  | 2 => row w 0x00800036 0xFFFC447F (.mxor (f w 7 3) (f w 11 3) (f w 15 3))
  | 3 => row w 0x00C00036 0xFFFFC47F (.mnot (f w 7 3) (f w 11 3))
  | 4 => row w 0x01000036 0x0FFC707F (.mpop (f w 7 5) (f w 15 3) (f w 28 4))
  | 5 => row w 0x01400036 0x0FFC707F (.mfirst (f w 7 5) (f w 15 3) (f w 28 4))
  | 6 => row w 0x01800036 0xFFF8047F (.mset (f w 7 3) (f w 11 4) (f w 15 4))
  | _ => .error .illegalOpcode

/-- Major 0x37 (R59): the selector is bits [27:22]. -/
noncomputable def decodeSfp (w : BitVec 32) : Except DecodeError Instr :=
  match (f w 22 6).toNat with
  | 0 => row w 0x00000037 0xFFC0007F (.fadd (f w 7 5) (f w 12 5) (f w 17 5))
  | 1 => row w 0x00400037 0xFFC0007F (.fsub (f w 7 5) (f w 12 5) (f w 17 5))
  | 2 => row w 0x00800037 0xFFC0007F (.fmul (f w 7 5) (f w 12 5) (f w 17 5))
  | 3 => row w 0x00C00037 0xFFC0007F (.fdiv (f w 7 5) (f w 12 5) (f w 17 5))
  | 4 => row w 0x01000037 0xFFFE007F (.fsqrt (f w 7 5) (f w 12 5))
  | 5 => row w 0x01400037 0xFFC0007F (.ffma (f w 7 5) (f w 12 5) (f w 17 5))
  | 6 => row w 0x01800037 0xFFC0007F (.fmin (f w 7 5) (f w 12 5) (f w 17 5))
  | 7 => row w 0x01C00037 0xFFC0007F (.fmax (f w 7 5) (f w 12 5) (f w 17 5))
  | 8 => row w 0x02000037 0xFFC0007F (.feq (f w 7 5) (f w 12 5) (f w 17 5))
  | 9 => row w 0x02400037 0xFFC0007F (.flt (f w 7 5) (f w 12 5) (f w 17 5))
  | 10 => row w 0x02800037 0xFFC0007F (.fle (f w 7 5) (f w 12 5) (f w 17 5))
  | 11 => row w 0x02C00037 0xFFFE007F (.fclass (f w 7 5) (f w 12 5))
  | 12 => row w 0x03000037 0xFFFE007F (.fexp2 (f w 7 5) (f w 12 5))
  | 13 => row w 0x03400037 0xFFFE007F (.flog2 (f w 7 5) (f w 12 5))
  | 14 => row w 0x03800037 0xFFC0007F (.fcvtif (f w 7 5) (f w 12 5) (f w 17 5))
  | 15 => row w 0x03C00037 0xFFC0007F (.fcvtfi (f w 7 5) (f w 12 5) (f w 17 5))
  | 16 => row w 0x04000037 0xFFC0007F (.fcvtff (f w 7 5) (f w 12 5) (f w 17 5))
  | _ => .error .illegalOpcode

/-- Major 0x40 (R59): the selector is bits [27:24]. -/
def decodeMma (w : BitVec 32) : Except DecodeError Instr :=
  match (f w 24 4).toNat with
  | 0 => row w 0x00000040 0x0FC0007F (.mmaE4m3 (f w 7 3) (f w 10 2) (f w 12 5) (f w 17 5) (f w 28 4))
  | 1 => row w 0x01000040 0x0FC0007F (.mmaE5m2 (f w 7 3) (f w 10 2) (f w 12 5) (f w 17 5) (f w 28 4))
  | 2 => row w 0x02000040 0x0FC0007F (.mmaE4m3e5m2 (f w 7 3) (f w 10 2) (f w 12 5) (f w 17 5) (f w 28 4))
  | 3 => row w 0x03000040 0x0FC0007F (.mmaE5m2e4m3 (f w 7 3) (f w 10 2) (f w 12 5) (f w 17 5) (f w 28 4))
  | 4 => row w 0x04000040 0x0FC0007F (.mmaBf16 (f w 7 3) (f w 10 2) (f w 12 5) (f w 17 5) (f w 28 4))
  | 5 => row w 0x05000040 0x0FC0007F (.mmaF16 (f w 7 3) (f w 10 2) (f w 12 5) (f w 17 5) (f w 28 4))
  | 6 => row w 0x06000040 0x0FC0007F (.mmaI8 (f w 7 3) (f w 10 2) (f w 12 5) (f w 17 5) (f w 28 4))
  | 7 => row w 0x07000040 0x0FC0007F (.mmaMint (f w 7 3) (f w 10 2) (f w 12 5) (f w 17 5) (f w 28 4))
  | _ => .error .illegalOpcode

/-- Major 0x41 (R59): the selector is bits [27:24]. -/
def decodeMctl (w : BitVec 32) : Except DecodeError Instr :=
  match (f w 24 4).toNat with
  | 0 =>
    match (f w 10 2).toNat with
    | 0 => row w 0x00000041 0xFFFFFC7F (.macqFp (f w 7 3))
    | 1 => row w 0x00000441 0xFFFFFC7F (.macqInt (f w 7 3))
    | _ => .error .reservedField
  | 1 => row w 0x01000041 0xFFFFFC7F (.mrel (f w 7 3))
  | 2 => row w 0x02000041 0xFFFFFC7F (.mzero (f w 7 3))
  | 3 => row w 0x03000041 0xFFFE0FFF (.mcfg (f w 12 5))
  | 4 => row w 0x04000041 0x0FC00C7F (.mld (f w 7 3) (f w 12 5) (f w 17 5) (f w 28 4))
  | 5 => row w 0x05000041 0x0FC00C7F (.mst (f w 7 3) (f w 12 5) (f w 17 5) (f w 28 4))
  | 6 => row w 0x06000041 0xFFC10C7F (.mrdv (f w 7 3) (f w 12 4) (f w 17 5))
  | 7 => row w 0x07000041 0xFFC10C7F (.mwrv (f w 7 3) (f w 12 4) (f w 17 5))
  | 8 =>
    match (f w 10 2).toNat with
    | 0 => row w 0x08000041 0xFFFFFFFF (.mflgFold)
    | 1 => row w 0x08000441 0xFFFFFFFF (.mflgClear)
    | 2 => row w 0x08000841 0xFFFFFFFF (.mflgRaise)
    | _ => .error .reservedField
  | _ => .error .illegalOpcode

/-- The instruction of a word whose major is none of the vector and scalar floating-point groups. -/
def decodeLow (w : BitVec 32) : Except DecodeError Instr :=
  match (f w 0 7).toNat with
  | 0x01 => decodeAlu w
  | 0x02 => decodeMulDiv w
  | 0x03 => decodeBits w
  | 0x04 => row w 0x00000004 0x0000007F (.addi (f w 7 5) (f w 12 5) (f w 17 15))
  | 0x05 => row w 0x00000005 0x0000007F (.andi (f w 7 5) (f w 12 5) (f w 17 15))
  | 0x06 => row w 0x00000006 0x0000007F (.ori (f w 7 5) (f w 12 5) (f w 17 15))
  | 0x07 => row w 0x00000007 0x0000007F (.xori (f w 7 5) (f w 12 5) (f w 17 15))
  | 0x08 => row w 0x00000008 0x0000007F (.slti (f w 7 5) (f w 12 5) (f w 17 15))
  | 0x09 => row w 0x00000009 0x0000007F (.sltni (f w 7 5) (f w 12 5) (f w 17 15))
  | 0x0A => decodeShift w
  | 0x0B => row w 0x0000000B 0xE000007F (.bfx (f w 7 5) (f w 12 5) (f w 17 6) (f w 23 6))
  | 0x0C => row w 0x0000000C 0xE000007F (.bfi (f w 7 5) (f w 12 5) (f w 17 6) (f w 23 6))
  | 0x0D => row w 0x0000000D 0x0000007F (.lih (f w 7 5) (f w 12 20))
  | 0x0E => row w 0x0000000E 0x0000007F (.addpc (f w 7 5) (f w 12 20))
  | 0x10 => decodeBranch w
  | 0x11 => row w 0x00000011 0x0000007F (.call (f w 7 5) (f w 12 20))
  | 0x12 => row w 0x00000012 0x0000007F (.jmpr (f w 7 5) (f w 12 5) (f w 17 15))
  | 0x14 => row w 0x00000014 0x0000007F (.lb (f w 7 5) (f w 12 5) (f w 17 4) (f w 21 11))
  | 0x15 => row w 0x00000015 0x0000007F (.lh (f w 7 5) (f w 12 5) (f w 17 4) (f w 21 11))
  | 0x16 => row w 0x00000016 0x0000007F (.lw (f w 7 5) (f w 12 5) (f w 17 4) (f w 21 11))
  | 0x17 => row w 0x00000017 0x0000007F (.ld (f w 7 5) (f w 12 5) (f w 17 4) (f w 21 11))
  | 0x18 => row w 0x00000018 0x0000007F (.lbn (f w 7 5) (f w 12 5) (f w 17 4) (f w 21 11))
  | 0x19 => row w 0x00000019 0x0000007F (.lhn (f w 7 5) (f w 12 5) (f w 17 4) (f w 21 11))
  | 0x1A => row w 0x0000001A 0x0000007F (.lwn (f w 7 5) (f w 12 5) (f w 17 4) (f w 21 11))
  | 0x1B => row w 0x0000001B 0x0000007F (.sb (f w 7 5) (f w 12 5) (f w 17 4) (f w 21 11))
  | 0x1C => row w 0x0000001C 0x0000007F (.sh (f w 7 5) (f w 12 5) (f w 17 4) (f w 21 11))
  | 0x1D => row w 0x0000001D 0x0000007F (.sw (f w 7 5) (f w 12 5) (f w 17 4) (f w 21 11))
  | 0x1E => row w 0x0000001E 0x0000007F (.sd (f w 7 5) (f w 12 5) (f w 17 4) (f w 21 11))
  | 0x1F => decodeOrd w
  | 0x20 => decodeAtom w
  | 0x21 => if (f w 27 5).toNat ≤ 3 then row w 0x00000021 0x0000087F (.smerge (f w 7 4) (f w 12 5) (f w 17 3) (f w 20 2) (f w 22 5) (f w 27 5)) else .error .illegalOpcode
  | 0x22 => decodeKv w
  | 0x24 => decodeMeet w
  | 0x25 => decodeTask w
  | 0x26 => decodeSig w
  | 0x27 => decodeCopy w
  | 0x28 => decodeCsr w
  | 0x29 => decodePriv w
  | 0x38 => row w 0x00000038 0x0000087F (.vld (f w 7 4) (f w 12 5) (f w 17 4) (f w 21 3) (f w 24 8))
  | 0x39 => row w 0x00000039 0x0000087F (.vst (f w 7 4) (f w 12 5) (f w 17 4) (f w 21 3) (f w 24 8))
  | 0x3A => row w 0x0000003A 0x0000087F (.vlds (f w 7 4) (f w 12 5) (f w 17 4) (f w 21 3) (f w 24 8))
  | 0x3B => row w 0x0000003B 0x0000087F (.vsts (f w 7 4) (f w 12 5) (f w 17 4) (f w 21 3) (f w 24 8))
  | 0x3C => row w 0x0000003C 0x0000087F (.vgath (f w 7 4) (f w 12 5) (f w 17 4) (f w 21 3) (f w 24 8))
  | 0x3D => row w 0x0000003D 0x0000087F (.vscat (f w 7 4) (f w 12 5) (f w 17 4) (f w 21 3) (f w 24 8))
  | 0x3E => row w 0x0000003E 0x0000087F (.vstq (f w 7 4) (f w 12 5) (f w 17 4) (f w 21 3) (f w 24 8))
  | 0x40 => decodeMma w
  | 0x41 => decodeMctl w
  | _ => .error .illegalOpcode

/-- The instruction a word holds (R59, R64). It is noncomputable only because the runtime cannot build the last
constructors of an inductive as large as `Instr`; the kernel evaluates it. -/
noncomputable def decode (w : BitVec 32) : Except DecodeError Instr :=
  match (f w 0 7).toNat with
  | 0x30 => decodeVfp w
  | 0x31 => decodeVint w
  | 0x32 => decodeVcmp w
  | 0x33 => decodeVmove w
  | 0x34 => decodeVcvt w
  | 0x35 => decodeVred w
  | 0x36 => decodeMask w
  | 0x37 => decodeSfp w
  | _ => decodeLow w

/-- The word of an encoded instruction, field by field in the order of its format (R46 to R51); an event has none. -/
def encode : Instr → Option (BitVec 32)
  | .add d a b => some (0#10 ++ b ++ a ++ d ++ 1#7)
  | .sub d a b => some (1#10 ++ b ++ a ++ d ++ 1#7)
  | .and d a b => some (2#10 ++ b ++ a ++ d ++ 1#7)
  | .or d a b => some (3#10 ++ b ++ a ++ d ++ 1#7)
  | .xor d a b => some (4#10 ++ b ++ a ++ d ++ 1#7)
  | .andn d a b => some (5#10 ++ b ++ a ++ d ++ 1#7)
  | .orn d a b => some (6#10 ++ b ++ a ++ d ++ 1#7)
  | .xnor d a b => some (7#10 ++ b ++ a ++ d ++ 1#7)
  | .sll d a b => some (8#10 ++ b ++ a ++ d ++ 1#7)
  | .srl d a b => some (9#10 ++ b ++ a ++ d ++ 1#7)
  | .sra d a b => some (10#10 ++ b ++ a ++ d ++ 1#7)
  | .rol d a b => some (11#10 ++ b ++ a ++ d ++ 1#7)
  | .ror d a b => some (12#10 ++ b ++ a ++ d ++ 1#7)
  | .min d a b => some (13#10 ++ b ++ a ++ d ++ 1#7)
  | .max d a b => some (14#10 ++ b ++ a ++ d ++ 1#7)
  | .minn d a b => some (15#10 ++ b ++ a ++ d ++ 1#7)
  | .maxn d a b => some (16#10 ++ b ++ a ++ d ++ 1#7)
  | .slt d a b => some (17#10 ++ b ++ a ++ d ++ 1#7)
  | .sltn d a b => some (18#10 ++ b ++ a ++ d ++ 1#7)
  | .seq d a b => some (19#10 ++ b ++ a ++ d ++ 1#7)
  | .sne d a b => some (20#10 ++ b ++ a ++ d ++ 1#7)
  | .addw d a b => some (21#10 ++ b ++ a ++ d ++ 1#7)
  | .subw d a b => some (22#10 ++ b ++ a ++ d ++ 1#7)
  | .sllw d a b => some (23#10 ++ b ++ a ++ d ++ 1#7)
  | .srlw d a b => some (24#10 ++ b ++ a ++ d ++ 1#7)
  | .sraw d a b => some (25#10 ++ b ++ a ++ d ++ 1#7)
  | .mul d a b => some (0#10 ++ b ++ a ++ d ++ 2#7)
  | .mulh d a b => some (1#10 ++ b ++ a ++ d ++ 2#7)
  | .mulhn d a b => some (2#10 ++ b ++ a ++ d ++ 2#7)
  | .mulw d a b => some (3#10 ++ b ++ a ++ d ++ 2#7)
  | .div d a b la => some (la ++ 4#6 ++ b ++ a ++ d ++ 2#7)
  | .divn d a b la => some (la ++ 5#6 ++ b ++ a ++ d ++ 2#7)
  | .rem d a b la => some (la ++ 6#6 ++ b ++ a ++ d ++ 2#7)
  | .remn d a b la => some (la ++ 7#6 ++ b ++ a ++ d ++ 2#7)
  | .divw d a b la => some (la ++ 8#6 ++ b ++ a ++ d ++ 2#7)
  | .remw d a b la => some (la ++ 9#6 ++ b ++ a ++ d ++ 2#7)
  | .clz d a => some (0#15 ++ a ++ d ++ 3#7)
  | .ctz d a => some (32#15 ++ a ++ d ++ 3#7)
  | .popc d a => some (64#15 ++ a ++ d ++ 3#7)
  | .brev d a => some (96#15 ++ a ++ d ++ 3#7)
  | .bswap d a => some (128#15 ++ a ++ d ++ 3#7)
  | .addi d a imm => some (imm ++ a ++ d ++ 4#7)
  | .andi d a imm => some (imm ++ a ++ d ++ 5#7)
  | .ori d a imm => some (imm ++ a ++ d ++ 6#7)
  | .xori d a imm => some (imm ++ a ++ d ++ 7#7)
  | .slti d a imm => some (imm ++ a ++ d ++ 8#7)
  | .sltni d a imm => some (imm ++ a ++ d ++ 9#7)
  | .slli d a k => some (0#9 ++ k ++ a ++ d ++ 10#7)
  | .srli d a k => some (64#9 ++ k ++ a ++ d ++ 10#7)
  | .srai d a k => some (128#9 ++ k ++ a ++ d ++ 10#7)
  | .roli d a k => some (192#9 ++ k ++ a ++ d ++ 10#7)
  | .rori d a k => some (256#9 ++ k ++ a ++ d ++ 10#7)
  | .bfx d a p w => some (0#3 ++ w ++ p ++ a ++ d ++ 11#7)
  | .bfi d a p w => some (0#3 ++ w ++ p ++ a ++ d ++ 12#7)
  | .lih d imm => some (imm ++ d ++ 13#7)
  | .addpc d imm => some (imm ++ d ++ 14#7)
  | .beq a b off => some (off ++ 0#3 ++ b ++ a ++ 16#7)
  | .bne a b off => some (off ++ 1#3 ++ b ++ a ++ 16#7)
  | .blt a b off => some (off ++ 2#3 ++ b ++ a ++ 16#7)
  | .bge a b off => some (off ++ 3#3 ++ b ++ a ++ 16#7)
  | .bltn a b off => some (off ++ 4#3 ++ b ++ a ++ 16#7)
  | .bgen a b off => some (off ++ 5#3 ++ b ++ a ++ 16#7)
  | .call d off => some (off ++ d ++ 17#7)
  | .jmpr d a imm => some (imm ++ a ++ d ++ 18#7)
  | .lb d a la off => some (off ++ la ++ a ++ d ++ 20#7)
  | .lh d a la off => some (off ++ la ++ a ++ d ++ 21#7)
  | .lw d a la off => some (off ++ la ++ a ++ d ++ 22#7)
  | .ld d a la off => some (off ++ la ++ a ++ d ++ 23#7)
  | .lbn d a la off => some (off ++ la ++ a ++ d ++ 24#7)
  | .lhn d a la off => some (off ++ la ++ a ++ d ++ 25#7)
  | .lwn d a la off => some (off ++ la ++ a ++ d ++ 26#7)
  | .sb d a la off => some (off ++ la ++ a ++ d ++ 27#7)
  | .sh d a la off => some (off ++ la ++ a ++ d ++ 28#7)
  | .sw d a la off => some (off ++ la ++ a ++ d ++ 29#7)
  | .sd d a la off => some (off ++ la ++ a ++ d ++ 30#7)
  | .lwo d a la ord scope => some (0#6 ++ scope ++ ord ++ la ++ a ++ d ++ 31#7)
  | .ldo d a la ord scope => some (1#6 ++ scope ++ ord ++ la ++ a ++ d ++ 31#7)
  | .swo d a la ord scope => some (2#6 ++ scope ++ ord ++ la ++ a ++ d ++ 31#7)
  | .sdo d a la ord scope => some (3#6 ++ scope ++ ord ++ la ++ a ++ d ++ 31#7)
  | .fence ord scope => some (4#6 ++ scope ++ ord ++ 0#14 ++ 31#7)
  | .pf a la scope => some (5#6 ++ scope ++ 0#2 ++ la ++ a ++ 0#5 ++ 31#7)
  | .ltag d a la ord scope => some (6#6 ++ scope ++ ord ++ la ++ a ++ d ++ 31#7)
  | .susp d a la scope => some (7#6 ++ scope ++ 0#2 ++ la ++ a ++ d ++ 31#7)
  | .resolve d a la scope => some (8#6 ++ scope ++ 0#2 ++ la ++ a ++ d ++ 31#7)
  | .cfail d a la scope => some (9#6 ++ scope ++ 0#2 ++ la ++ a ++ d ++ 31#7)
  | .cflush a la ord scope => some (10#6 ++ scope ++ ord ++ la ++ a ++ 0#5 ++ 31#7)
  | .cinv a la ord scope => some (11#6 ++ scope ++ ord ++ la ++ a ++ 0#5 ++ 31#7)
  | .aadd d a scope ord b sz => some (sz ++ 0#4 ++ b ++ ord ++ scope ++ a ++ d ++ 32#7)
  | .afadd d a scope ord b => some (17#5 ++ b ++ ord ++ scope ++ a ++ d ++ 32#7)
  | .aand d a scope ord b sz => some (sz ++ 2#4 ++ b ++ ord ++ scope ++ a ++ d ++ 32#7)
  | .aor d a scope ord b sz => some (sz ++ 3#4 ++ b ++ ord ++ scope ++ a ++ d ++ 32#7)
  | .axor d a scope ord b sz => some (sz ++ 4#4 ++ b ++ ord ++ scope ++ a ++ d ++ 32#7)
  | .amin d a scope ord b sz => some (sz ++ 5#4 ++ b ++ ord ++ scope ++ a ++ d ++ 32#7)
  | .amax d a scope ord b sz => some (sz ++ 6#4 ++ b ++ ord ++ scope ++ a ++ d ++ 32#7)
  | .aminn d a scope ord b sz => some (sz ++ 7#4 ++ b ++ ord ++ scope ++ a ++ d ++ 32#7)
  | .amaxn d a scope ord b sz => some (sz ++ 8#4 ++ b ++ ord ++ scope ++ a ++ d ++ 32#7)
  | .afmin d a scope ord b => some (25#5 ++ b ++ ord ++ scope ++ a ++ d ++ 32#7)
  | .afmax d a scope ord b => some (26#5 ++ b ++ ord ++ scope ++ a ++ d ++ 32#7)
  | .aswp d a scope ord b sz => some (sz ++ 11#4 ++ b ++ ord ++ scope ++ a ++ d ++ 32#7)
  | .acas d a scope ord b sz => some (sz ++ 12#4 ++ b ++ ord ++ scope ++ a ++ d ++ 32#7)
  | .aaddo d a scope ord b sz => some (sz ++ 13#4 ++ b ++ ord ++ scope ++ a ++ d ++ 32#7)
  | .afaddo d a scope ord b => some (30#5 ++ b ++ ord ++ scope ++ a ++ d ++ 32#7)
  | .smerge d a scope ord b op => some (op ++ b ++ ord ++ scope ++ a ++ 0#1 ++ d ++ 33#7)
  | .kvrsv d a scope => some (0#6 ++ scope ++ 0#6 ++ a ++ d ++ 34#7)
  | .kvtake d a scope => some (1#6 ++ scope ++ 0#6 ++ a ++ d ++ 34#7)
  | .kvgive d a scope => some (2#6 ++ scope ++ 0#6 ++ a ++ d ++ 34#7)
  | .kvshare d a scope => some (3#6 ++ scope ++ 0#6 ++ a ++ d ++ 34#7)
  | .kvrel d a scope => some (4#6 ++ scope ++ 0#6 ++ a ++ d ++ 34#7)
  | .kvpass d a scope => some (5#6 ++ scope ++ 0#6 ++ a ++ d ++ 34#7)
  | .kvcow d a scope => some (6#6 ++ scope ++ 0#6 ++ a ++ d ++ 34#7)
  | .kvscl d a scope => some (7#6 ++ scope ++ 0#6 ++ a ++ d ++ 34#7)
  | .meetC d a b => some (0#10 ++ b ++ a ++ d ++ 36#7)
  | .meetT d a b => some (1#10 ++ b ++ a ++ d ++ 36#7)
  | .mlive d a => some (64#15 ++ a ++ d ++ 36#7)
  | .mclr d a => some (96#15 ++ a ++ d ++ 36#7)
  | .mlog d a b => some (4#10 ++ b ++ a ++ d ++ 36#7)
  | .spawn d a => some (0#15 ++ a ++ d ++ 37#7)
  | .spawnx d a b => some (1#10 ++ b ++ a ++ d ++ 37#7)
  | .cont d a b => some (2#10 ++ b ++ a ++ d ++ 37#7)
  | .retire a => some (96#15 ++ a ++ 0#5 ++ 37#7)
  | .launch d a => some (128#15 ++ a ++ d ++ 37#7)
  | .yield d => some (5120#20 ++ d ++ 37#7)
  | .send d a b => some (0#10 ++ b ++ a ++ d ++ 38#7)
  | .sendt d a b => some (1#10 ++ b ++ a ++ d ++ 38#7)
  | .waitm d a => some (64#15 ++ a ++ d ++ 38#7)
  | .recv d => some (3072#20 ++ d ++ 38#7)
  | .peekm d => some (4096#20 ++ d ++ 38#7)
  | .bara d a => some (160#15 ++ a ++ d ++ 38#7)
  | .barw d a b => some (6#10 ++ b ++ a ++ d ++ 38#7)
  | .bar d a => some (224#15 ++ a ++ d ++ 38#7)
  | .barex d a b => some (8#10 ++ b ++ a ++ d ++ 38#7)
  | .barcfg d a b => some (9#10 ++ b ++ a ++ d ++ 38#7)
  | .qres d a => some (320#15 ++ a ++ d ++ 38#7)
  | .qpub d a => some (352#15 ++ a ++ d ++ 38#7)
  | .qacq d a => some (384#15 ++ a ++ d ++ 38#7)
  | .qrel d a => some (416#15 ++ a ++ d ++ 38#7)
  | .bankcfg d a b => some (14#10 ++ b ++ a ++ d ++ 38#7)
  | .cpy d a b => some (0#10 ++ b ++ a ++ d ++ 39#7)
  | .cpyt d a => some (32#15 ++ a ++ d ++ 39#7)
  | .csrr d csr => some (csr ++ 0#8 ++ d ++ 40#7)
  | .csrw d a csr => some (csr ++ 1#3 ++ a ++ d ++ 40#7)
  | .csrs d a csr => some (csr ++ 2#3 ++ a ++ d ++ 40#7)
  | .csrc d a csr => some (csr ++ 3#3 ++ a ++ d ++ 40#7)
  | .ecall => some (0#25 ++ 41#7)
  | .ebreak => some (32768#25 ++ 41#7)
  | .tret => some (65536#25 ++ 41#7)
  | .fencei => some (98304#25 ++ 41#7)
  | .tlbinv a b => some (4#10 ++ b ++ a ++ 0#5 ++ 41#7)
  | .ctxout d a b => some (5#10 ++ b ++ a ++ d ++ 41#7)
  | .ctxin d a b => some (6#10 ++ b ++ a ++ d ++ 41#7)
  | .halt a => some (224#15 ++ a ++ 0#5 ++ 41#7)
  | .wfi d a => some (256#15 ++ a ++ d ++ 41#7)
  | .vld d a la mk off => some (off ++ mk ++ la ++ a ++ 0#1 ++ d ++ 56#7)
  | .vst d a la mk off => some (off ++ mk ++ la ++ a ++ 0#1 ++ d ++ 57#7)
  | .vlds d a la mk off => some (off ++ mk ++ la ++ a ++ 0#1 ++ d ++ 58#7)
  | .vsts d a la mk off => some (off ++ mk ++ la ++ a ++ 0#1 ++ d ++ 59#7)
  | .vgath d a la mk off => some (off ++ mk ++ la ++ a ++ 0#1 ++ d ++ 60#7)
  | .vscat d a la mk off => some (off ++ mk ++ la ++ a ++ 0#1 ++ d ++ 61#7)
  | .vstq d a la mk off => some (off ++ mk ++ la ++ a ++ 0#1 ++ d ++ 62#7)
  | .mmaE4m3 acc mode a b la => some (la ++ 0#6 ++ b ++ a ++ mode ++ acc ++ 64#7)
  | .mmaE5m2 acc mode a b la => some (la ++ 4#6 ++ b ++ a ++ mode ++ acc ++ 64#7)
  | .mmaE4m3e5m2 acc mode a b la => some (la ++ 8#6 ++ b ++ a ++ mode ++ acc ++ 64#7)
  | .mmaE5m2e4m3 acc mode a b la => some (la ++ 12#6 ++ b ++ a ++ mode ++ acc ++ 64#7)
  | .mmaBf16 acc mode a b la => some (la ++ 16#6 ++ b ++ a ++ mode ++ acc ++ 64#7)
  | .mmaF16 acc mode a b la => some (la ++ 20#6 ++ b ++ a ++ mode ++ acc ++ 64#7)
  | .mmaI8 acc mode a b la => some (la ++ 24#6 ++ b ++ a ++ mode ++ acc ++ 64#7)
  | .mmaMint acc mode a b la => some (la ++ 28#6 ++ b ++ a ++ mode ++ acc ++ 64#7)
  | .macqFp acc => some (0#22 ++ acc ++ 65#7)
  | .macqInt acc => some (1#22 ++ acc ++ 65#7)
  | .mrel acc => some (16384#22 ++ acc ++ 65#7)
  | .mzero acc => some (32768#22 ++ acc ++ 65#7)
  | .mcfg a => some (384#15 ++ a ++ 0#5 ++ 65#7)
  | .mld acc a b la => some (la ++ 16#6 ++ b ++ a ++ 0#2 ++ acc ++ 65#7)
  | .mst acc a b la => some (la ++ 20#6 ++ b ++ a ++ 0#2 ++ acc ++ 65#7)
  | .mrdv acc v b => some (24#10 ++ b ++ 0#1 ++ v ++ 0#2 ++ acc ++ 65#7)
  | .mwrv acc v b => some (28#10 ++ b ++ 0#1 ++ v ++ 0#2 ++ acc ++ 65#7)
  | .mflgFold => some (1048576#25 ++ 65#7)
  | .mflgClear => some (1048584#25 ++ 65#7)
  | .mflgRaise => some (1048592#25 ++ 65#7)
  | .vadd d a b mk ty => some (ty ++ 0#6 ++ mk ++ b ++ a ++ d ++ 48#7)
  | .vsub d a b mk ty => some (ty ++ 1#6 ++ mk ++ b ++ a ++ d ++ 48#7)
  | .vmul d a b mk ty => some (ty ++ 2#6 ++ mk ++ b ++ a ++ d ++ 48#7)
  | .vdiv d a b mk ty => some (ty ++ 3#6 ++ mk ++ b ++ a ++ d ++ 48#7)
  | .vfma d a b mk ty => some (ty ++ 4#6 ++ mk ++ b ++ a ++ d ++ 48#7)
  | .vfms d a b mk ty => some (ty ++ 5#6 ++ mk ++ b ++ a ++ d ++ 48#7)
  | .vfnma d a b mk ty => some (ty ++ 6#6 ++ mk ++ b ++ a ++ d ++ 48#7)
  | .vmin d a b mk ty => some (ty ++ 7#6 ++ mk ++ b ++ a ++ d ++ 48#7)
  | .vmax d a b mk ty => some (ty ++ 8#6 ++ mk ++ b ++ a ++ d ++ 48#7)
  | .vabs d a mk ty => some (ty ++ 9#6 ++ mk ++ 0#4 ++ a ++ d ++ 48#7)
  | .vneg d a mk ty => some (ty ++ 10#6 ++ mk ++ 0#4 ++ a ++ d ++ 48#7)
  | .vsqrt d a mk ty => some (ty ++ 11#6 ++ mk ++ 0#4 ++ a ++ d ++ 48#7)
  | .vrsq d a mk ty => some (ty ++ 12#6 ++ mk ++ 0#4 ++ a ++ d ++ 48#7)
  | .vrcp d a mk ty => some (ty ++ 13#6 ++ mk ++ 0#4 ++ a ++ d ++ 48#7)
  | .vexp2 d a mk ty => some (ty ++ 14#6 ++ mk ++ 0#4 ++ a ++ d ++ 48#7)
  | .vlog2 d a mk ty => some (ty ++ 15#6 ++ mk ++ 0#4 ++ a ++ d ++ 48#7)
  | .vclass d a mk ty => some (ty ++ 16#6 ++ mk ++ 0#4 ++ a ++ d ++ 48#7)
  | .viadd d a b mk ty => some (ty ++ 0#6 ++ mk ++ b ++ a ++ d ++ 49#7)
  | .visub d a b mk ty => some (ty ++ 1#6 ++ mk ++ b ++ a ++ d ++ 49#7)
  | .vimul d a b mk ty => some (ty ++ 2#6 ++ mk ++ b ++ a ++ d ++ 49#7)
  | .vand d a b mk ty => some (ty ++ 3#6 ++ mk ++ b ++ a ++ d ++ 49#7)
  | .vor d a b mk ty => some (ty ++ 4#6 ++ mk ++ b ++ a ++ d ++ 49#7)
  | .vxor d a b mk ty => some (ty ++ 5#6 ++ mk ++ b ++ a ++ d ++ 49#7)
  | .vsll d a b mk ty => some (ty ++ 6#6 ++ mk ++ b ++ a ++ d ++ 49#7)
  | .vsrl d a b mk ty => some (ty ++ 7#6 ++ mk ++ b ++ a ++ d ++ 49#7)
  | .vsra d a b mk ty => some (ty ++ 8#6 ++ mk ++ b ++ a ++ d ++ 49#7)
  | .vimin d a b mk ty => some (ty ++ 9#6 ++ mk ++ b ++ a ++ d ++ 49#7)
  | .vimax d a b mk ty => some (ty ++ 10#6 ++ mk ++ b ++ a ++ d ++ 49#7)
  | .viminn d a b mk ty => some (ty ++ 11#6 ++ mk ++ b ++ a ++ d ++ 49#7)
  | .vimaxn d a b mk ty => some (ty ++ 12#6 ++ mk ++ b ++ a ++ d ++ 49#7)
  | .vcmpEq d a b mk ty => some (ty ++ 0#6 ++ mk ++ b ++ a ++ 0#1 ++ d ++ 50#7)
  | .vcmpNe d a b mk ty => some (ty ++ 1#6 ++ mk ++ b ++ a ++ 0#1 ++ d ++ 50#7)
  | .vcmpLt d a b mk ty => some (ty ++ 2#6 ++ mk ++ b ++ a ++ 0#1 ++ d ++ 50#7)
  | .vcmpLe d a b mk ty => some (ty ++ 3#6 ++ mk ++ b ++ a ++ 0#1 ++ d ++ 50#7)
  | .vcmpUn d a b mk ty => some (ty ++ 4#6 ++ mk ++ b ++ a ++ 0#1 ++ d ++ 50#7)
  | .vcmpLtn d a b mk ty => some (ty ++ 5#6 ++ mk ++ b ++ a ++ 0#1 ++ d ++ 50#7)
  | .vcmpLen d a b mk ty => some (ty ++ 6#6 ++ mk ++ b ++ a ++ 0#1 ++ d ++ 50#7)
  | .vsel d a b mk ty => some (ty ++ 0#6 ++ mk ++ b ++ a ++ d ++ 51#7)
  | .vperm d a b mk ty => some (ty ++ 1#6 ++ mk ++ b ++ a ++ d ++ 51#7)
  | .vbcast d x mk ty => some (ty ++ 2#6 ++ mk ++ 0#3 ++ x ++ d ++ 51#7)
  | .vext x b mk ty => some (ty ++ 3#6 ++ mk ++ b ++ 0#3 ++ x ++ 51#7)
  | .vins d x mk ty => some (ty ++ 4#6 ++ mk ++ 0#3 ++ x ++ d ++ 51#7)
  | .viota d mk ty => some (ty ++ 5#6 ++ mk ++ 0#8 ++ d ++ 51#7)
  | .vmv d a mk ty => some (ty ++ 6#6 ++ mk ++ 0#4 ++ a ++ d ++ 51#7)
  | .vslide d a n mk ty => some (ty ++ 7#6 ++ mk ++ n ++ a ++ d ++ 51#7)
  | .vcvtF32Bf16 d a mk => some (0#10 ++ mk ++ 0#4 ++ a ++ d ++ 52#7)
  | .vcvtF32F16 d a mk => some (1#10 ++ mk ++ 0#4 ++ a ++ d ++ 52#7)
  | .vcvtF32E4m3 d a mk => some (2#10 ++ mk ++ 0#4 ++ a ++ d ++ 52#7)
  | .vcvtF32E5m2 d a mk => some (3#10 ++ mk ++ 0#4 ++ a ++ d ++ 52#7)
  | .vcvtBf16F32 d a mk => some (4#10 ++ mk ++ 0#4 ++ a ++ d ++ 52#7)
  | .vcvtF16F32 d a mk => some (5#10 ++ mk ++ 0#4 ++ a ++ d ++ 52#7)
  | .vcvtE4m3F32 d a mk => some (6#10 ++ mk ++ 0#4 ++ a ++ d ++ 52#7)
  | .vcvtE5m2F32 d a mk => some (7#10 ++ mk ++ 0#4 ++ a ++ d ++ 52#7)
  | .vcvtF32I32 d a mk => some (8#10 ++ mk ++ 0#4 ++ a ++ d ++ 52#7)
  | .vcvtI32F32 d a mk => some (9#10 ++ mk ++ 0#4 ++ a ++ d ++ 52#7)
  | .vcvtI8I32 d a mk => some (10#10 ++ mk ++ 0#4 ++ a ++ d ++ 52#7)
  | .vcvtI32I8 d a mk => some (11#10 ++ mk ++ 0#4 ++ a ++ d ++ 52#7)
  | .vrsum d a mk ty => some (ty ++ 0#6 ++ mk ++ 0#4 ++ a ++ d ++ 53#7)
  | .vrmax d a mk ty => some (ty ++ 1#6 ++ mk ++ 0#4 ++ a ++ d ++ 53#7)
  | .vrmin d a mk ty => some (ty ++ 2#6 ++ mk ++ 0#4 ++ a ++ d ++ 53#7)
  | .vscan d a mk ty => some (ty ++ 3#6 ++ mk ++ 0#4 ++ a ++ d ++ 53#7)
  | .vtopk d a mk ty => some (ty ++ 4#6 ++ mk ++ 0#4 ++ a ++ d ++ 53#7)
  | .mand d a b => some (0#14 ++ b ++ 0#1 ++ a ++ 0#1 ++ d ++ 54#7)
  | .mor d a b => some (16#14 ++ b ++ 0#1 ++ a ++ 0#1 ++ d ++ 54#7)
  | .mxor d a b => some (32#14 ++ b ++ 0#1 ++ a ++ 0#1 ++ d ++ 54#7)
  | .mnot d a => some (768#18 ++ a ++ 0#1 ++ d ++ 54#7)
  | .mpop d b ty => some (ty ++ 64#10 ++ b ++ 0#3 ++ d ++ 54#7)
  | .mfirst d b ty => some (ty ++ 80#10 ++ b ++ 0#3 ++ d ++ 54#7)
  | .mset d kl kh => some (48#13 ++ kh ++ kl ++ 0#1 ++ d ++ 54#7)
  | .fadd d a b => some (0#10 ++ b ++ a ++ d ++ 55#7)
  | .fsub d a b => some (1#10 ++ b ++ a ++ d ++ 55#7)
  | .fmul d a b => some (2#10 ++ b ++ a ++ d ++ 55#7)
  | .fdiv d a b => some (3#10 ++ b ++ a ++ d ++ 55#7)
  | .fsqrt d a => some (128#15 ++ a ++ d ++ 55#7)
  | .ffma d a b => some (5#10 ++ b ++ a ++ d ++ 55#7)
  | .fmin d a b => some (6#10 ++ b ++ a ++ d ++ 55#7)
  | .fmax d a b => some (7#10 ++ b ++ a ++ d ++ 55#7)
  | .feq d a b => some (8#10 ++ b ++ a ++ d ++ 55#7)
  | .flt d a b => some (9#10 ++ b ++ a ++ d ++ 55#7)
  | .fle d a b => some (10#10 ++ b ++ a ++ d ++ 55#7)
  | .fclass d a => some (352#15 ++ a ++ d ++ 55#7)
  | .fexp2 d a => some (384#15 ++ a ++ d ++ 55#7)
  | .flog2 d a => some (416#15 ++ a ++ d ++ 55#7)
  | .fcvtif d a code => some (14#10 ++ code ++ a ++ d ++ 55#7)
  | .fcvtfi d a code => some (15#10 ++ code ++ a ++ d ++ 55#7)
  | .fcvtff d a code => some (16#10 ++ code ++ a ++ d ++ 55#7)
  | .instructionFetch _ => none
  | .trapEntry _ => none
  | .trappingPeriodEnd _ => none
  | .loadDataReturn _ => none
  | .storeAccept _ => none
  | .divideComplete _ => none
  | .vectorAccessComplete _ => none
  | .mmaComplete _ => none
  | .mldMstComplete _ => none
  | .pageTableWalk _ _ _ => none
  | .rotationBoundary => none
  | .stealRequest _ => none
  | .starvationPreemption _ => none
  | .preemptionSave _ => none
  | .watchdogExpiry _ => none
  | .datapathCheckRetirement _ => none
  | .debugStep _ => none
  | .meetWindowEnd _ => none
  | .meetEntryFree _ => none
  | .bankModeChange _ => none
  | .copyRequestAccept _ => none
  | .copyTransfer _ => none
  | .copyLoopIteration _ => none
  | .heldMailboxPosting _ => none
  | .barrierPhaseComplete _ _ => none
  | .launchCompletion _ => none
  | .coherentLineRequest _ _ _ => none
  | .sliceAtomicPerform _ => none
  | .smergePerform _ => none
  | .stagedRecordAccept _ => none
  | .evaluationStart _ => none
  | .brokerRequest _ => none
  | .brokerFlagChange _ _ _ => none
  | .wfiTimeout _ => none
  | .waitmTimeout _ => none
  | .helbenNotification _ => none
  | .doorbellRing _ => none
  | .hostBar2Read _ _ => none
  | .hostBar2Write _ _ _ => none
  | .hostBar0Write _ _ _ => none
  | .functionLevelReset => none
  | .conventionalReset => none
  | .linkFlitReplay _ => none
  | .linkResetRetrain _ => none
  | .remoteRequest _ _ _ => none
  | .remoteResponseTimeout _ => none
  | .partitionHalt _ _ _ => none
  | .haltLimitExpiry _ => none
  | .haltRemoteTimeout _ => none
  | .partitionSwap _ _ => none
  | .partitionRelease _ => none
  | .powerOnStartup _ => none
  | .firmwareUpdate _ _ => none
  | .firmwareConfirm => none
  | .powerSense _ _ _ => none
  | .sensorSample _ => none
  | .dramScrub _ => none
  | .partRetirement _ => none
  | .launchReplay _ => none
  | .controlRegisterWrite _ => none
  | .startupRetryCommand _ => none
  | .retirementLifted _ => none

/-- The word stored little-endian in four bytes (R45). -/
def wordOfBytes (b0 b1 b2 b3 : Byte) : BitVec 32 := b3 ++ b2 ++ b1 ++ b0

/-- The host's view of the decoder: an instruction of `nbits` bits whose bits are `w`, laid out in memory as the
hardware stores them and read back by `decode`. -/
noncomputable def decodeTableWord (nbits w : Nat) : Option Instr :=
  if nbits ≤ 32 then
    let b := fun (k : Nat) => BitVec.ofNat 8 (w % 2 ^ nbits / 256 ^ k)
    match decode (wordOfBytes (b 0) (b 1) (b 2) (b 3)) with
    | .ok i => some i
    | .error _ => none
  else none

end Sys2Proof
end

