-- ==== Sys2Proof/Machine/State.lean ====
section
/-!
DEFINITION. The state of one PLV-4 package as plain data: threads, cores, clusters, dies, launches, memory with its tags,
the suspension cells' evaluation entries, Helben, the host's endpoint and the fabric, and the machine after reset.
Every sparse table is a list of (key, value) pairs in rising key order.
-/
namespace Sys2Proof.Machine

/-- The one way a step of the model stops. -/
inductive Fault where
  /-- Raised by `exec` of an encoded instruction in a state whose `cur` names no thread bound to a slot: there is no
  thread to run it. `step` never asks for this. Safe: the machine has no such step. -/
  | noThread
  deriving DecidableEq, Repr

/-- Reasons for having no meaning. -/
inductive Refusal where
  /-- Raised by an arm of `exec` whose instruction has no meaning in the model yet. Safe: the run stops. -/
  | notModelled (mnemonic : String)
  deriving DecidableEq, Repr

/-- Memory: (address, byte) pairs, addresses strictly rising, no entry equal to 0, which is what an unlisted address
reads as (R374 step 2 writes every word of DRAM with zero data; log 3). -/
abbrev Memory := List Host.Cell

/-- A sparse table. -/
abbrev SMap (α : Type) := List (Nat × α)

/-- The privilege mode of a thread (R95 EMODE, R134). -/
inductive Mode where
  | user
  | supervisor
  deriving DecidableEq, Repr

/-- The 64 trap causes, in code order (R138). -/
inductive Cause where
  | illegalOpcode | reservedField | privileged | lookaheadHazard | misalignedFetch | fetchFault | breakpoint | ecallUser
  | ecallSupervisor | divZero | fpInvalid | fpDivzero | fpOverflow | fpUnderflow | fpInexact | barrierFpCollected
  | loadMisaligned | storeMisaligned | loadPageFault | storePageFault | loadProtection | storeProtection | spaceInvalid
  | remoteUnreachable | uncorrectableData | attributeConflict | determinismViolation | dStagingFull | kvSharedWrite
  | kvNotOwner | kvEscrowEmpty | kvPoolInvalid | meetMultOverflow | meetLiveMask | meetTableInvalid | joinUnderflow
  | dequeSpillFull | launchHeaderInvalid | taskRecordInvalid | contextRecordInvalid | selfDependence | suspensionFailed
  | cellBusyWrite | thunkInvalid | mailboxInvalid | barrierMisuse | channelMisuse | bankModeMismatch | copyRequestInvalid
  | copyFault | matrixTileNotHeld | matrixFormatInvalid | mintDecodeError | datapathCheck | watchdog
  | haltedByManagement | debugStep | debugWatch | pageTableCorrupt | linkReset | instructionUncorrectable | csrInvalid
  | contextSwapError | machineCheck
  deriving DecidableEq, Repr

/-- A trap before it is taken: its cause and its EVAL (R138); ESKIP is given where it is taken (R139). -/
structure Trap where
  cause : Cause
  val   : Word
  deriving DecidableEq, Repr

/-- Where a checked access goes (R11, R116). -/
inductive Loc where
  /-- A physical DRAM address. -/
  | dram (pa : Nat)
  /-- A cluster SRAM byte: (cluster * 32 + bank) * 2 ^ 17 + offset. -/
  | bank (key : Nat)
  /-- A CONTROL register (R147): the core or the cluster, whether it is the cluster block, and the offset. -/
  | control (unit : Nat) (clusterBlock : Bool) (off : Nat)
  /-- A REMOTE address of another package (R372). -/
  | remote (dev addr : Nat)
  deriving DecidableEq, Repr

/-- One enabled lane of a vector access (R220): its index, pointer, place, whether its page has L set, its alias window,
and for a store the bytes it writes. -/
structure Lane where
  idx   : Nat
  ptr   : Word
  loc   : Loc
  lpage : Bool
  win   : Nat
  data  : Word
  deriving DecidableEq, Repr

/-- The destination of a head (R54). -/
inductive Dest where
  | none
  | x (r : Reg)
  | v (r : VReg)
  | tile (acc : BitVec 3)
  deriving DecidableEq, Repr

/-- A shadow window (R53, R55): the head's PC and destination and how many more instructions it admits. It outlives its
head, because a hazard inside it traps after the head has completed. -/
structure Window where
  headPc : Word
  dest   : Dest
  left   : Nat
  deriving DecidableEq, Repr

/-- An outstanding long-class head with the operands it read when it issued (R54). -/
inductive HeadOp where
  /-- A scalar load, LWO or LDO. -/
  | load (d : Reg) (size : Nat) (sext : Bool) (ptr : Word) (loc : Loc) (lpage : Bool)
  /-- A scalar store, SWO or SDO. -/
  | store (size : Nat) (ptr : Word) (data : Word) (loc : Loc) (lpage : Bool)
  /-- A divide, its result and the cycle in which it completes (R102). -/
  | div (d : Reg) (result : Word) (done : Nat)
  /-- VLD, VLDS, VGATH. -/
  | vload (d : VReg) (lanes : List Lane)
  /-- VST, VSTS, VSCAT with the flags of its narrowing (R202). -/
  | vstore (lanes : List Lane) (flags : BitVec 5)
  /-- VSTQ: its base, the page header's address, the enabled lanes and the data (R223). -/
  | vstq (ptr : Word) (pa hdr : Nat) (mask : MWord) (data : VWord)
  /-- MMA: the tile's new elements and clamp bits and what MXCNT gains (R234, R231). -/
  | mma (acc : BitVec 3) (elems : BitVec 40960) (clamp : BitVec 1024) (counts : Word)
  /-- MLD: as MMA. -/
  | mld (acc : BitVec 3) (elems : BitVec 40960) (counts : Word)
  /-- MST: the tile it reads, the size of an element, the elements it stores and what MXCNT gains. -/
  | mst (acc : BitVec 3) (size : Nat) (elems : List Lane) (counts : Word)
  /-- MMA or MLD with an operand word on an L page that was not VALUE when it issued (R235): the first such word. -/
  | cells (acc : BitVec 3) (pa : Nat) (ptr : Word)
  /-- MMA or MLD with an operand byte marked uncorrectable (R116 order 8, R245): the pointer of EVAL. -/
  | marked (acc : BitVec 3) (ptr : Word)
  deriving DecidableEq, Repr

/-- A head: its own PC, the PC of what follows it, its issue cycle and how many shadows have retired. `reads` holds the physical addresses at
which the operand rows of an MMA or MLD begin. -/
structure Head where
  pc      : Word
  next    : Word
  since   : Nat
  retired : Nat
  op      : HeadOp
  reads   : List Nat := []
  deriving DecidableEq, Repr

/-- An ATOM sent to its home slice (R303, R305, R310). -/
structure AtomReq where
  d      : Reg
  op     : Nat
  size   : Nat
  ptr    : Word
  loc    : Loc
  lpage  : Bool
  staged : Bool
  b      : Word
  c      : Word
  mult   : Nat
  frm    : BitVec 2
  wid    : Word
  seqno  : Nat
  deriving DecidableEq, Repr

/-- An SMERGE sent to its home slice (R307, R308): the physical addresses of the triple's 64-byte blocks, the partial, and
the multiplicity and rounding mode. -/
structure SmergeReq where
  ptr    : Word
  blocks : List Nat
  op     : Nat
  staged : Bool
  m      : BitVec 32
  l      : BitVec 32
  o      : List (BitVec 32)
  mult   : Nat
  frm    : BitVec 2
  wid    : Word
  seqno  : Nat
  deriving DecidableEq, Repr

/-- The context CSRs of a launch context (R95, R293). -/
structure CtxCsrs where
  tvec   : Word
  deleg  : Word
  asid   : BitVec 16
  ptbase : Word
  deriving DecidableEq, Repr

/-- A copy request in a command FIFO or accepted by the engine (R253, R261), with the issuer's translation context. `home` is the handle
of its thread, `fifo` the core whose command FIFO it came from, and `lctx` the launch context of its thread. -/
structure CopyReq where
  tid      : Nat
  home     : Nat
  fifo     : Nat
  lctx     : Nat
  w0       : Word
  w1       : Word
  w2       : Word
  w3       : Word
  mode     : Mode
  csrs     : CtxCsrs
  privbase : Word
  deriving DecidableEq, Repr

/-- What waits on a suspension cell (R324, R325). -/
inductive CellUse where
  /-- A scalar load: destination, offset in the cell, size and sign extension. -/
  | load (d : Reg) (off size : Nat) (sext : Bool)
  /-- An ATOM. -/
  | atom (req : AtomReq)
  /-- A vector load, MMA or MLD, performed again whole. -/
  | again
  deriving DecidableEq, Repr

/-- An outstanding waiting-class instruction (R52, R87), or what a parked thread waits for (R99). A WFI records what has reached it
in this cycle: the reason codes of R133. A CTXOUT names the thread that it waits for (R130). A CPY or CPYT holds its request while it
waits for a free entry of the command FIFO (R261). -/
inductive Wait where
  | atom (req : AtomReq)
  | smerge (req : SmergeReq)
  | macq (acc : BitVec 3) (int : Bool) (since : Nat)
  | meet (d : Reg) (bank entry : Nat)
  | recv (d : Reg)
  | waitm (d : Reg) (deadline : Option Nat)
  | wfi (d : Reg) (deadline : Option Nat) (reached : List Nat)
  | send (target : Nat) (m0 m1 : Word) (d : Reg)
  | barw (d : Reg) (cluster id : Nat) (parity : Bool)
  | qres (d : Reg) (bank : Nat) (ptr : Word)
  | qacq (d : Reg) (bank : Nat) (ptr : Word)
  | copy (d : Reg) (unpushed : Option CopyReq)
  | bankcfg (d : Reg) (bank : Nat)
  | barex (d : Reg) (cluster id amount : Nat)
  | cell (pa : Nat) (ptr : Word) (use : CellUse)
  | yield (d : Reg)
  | broker (pool : Nat) (cow : Bool) (d a : Reg)
  | ctxout (d : Reg) (target : Nat) (ptr : Word)
  deriving DecidableEq, Repr

/-- Whether the next instruction is the first one of a handler just entered, and of which (R136). -/
inductive Entered where
  | no
  | user
  | supervisor
  deriving DecidableEq, Repr

/-- Where a thread's context is (R85, R99, R144, R145). -/
inductive Place where
  /-- Bound in the slot of this handle (R9). -/
  | slot (handle : Nat)
  /-- In the thread-context cache of a core; `home` is the handle of the slot it left. -/
  | cached (home : Nat)
  /-- In the spill area of a core, at record number `idx`. -/
  | spilled (home idx : Nat)
  /-- Written to memory by CTXOUT at this pointer. -/
  | out (home : Nat) (at_ : Word)
  /-- Restored by CTXIN, to be bound in this slot at the next rotation boundary. -/
  | arriving (handle : Nat)
  /-- Saved with its partition by a swap (R150): 0 bound, 1 cached, 2 spilled, 3 arriving. -/
  | swapped (pid kind home idx : Nat)
  deriving DecidableEq, Repr

/-- A hardware thread: registers and CSRs (R94, R95) and its execution state. `wake` is the wake pending of a saved thread whose wait
has ended (R99), `kind` the park kind of that wait, and `again` says that its instruction did not retire with a result: it is performed
again, or its trap is pending. `owed` is the trap that an ended wait left at its PC and that an event of R137 came before. -/
structure Thread where
  place    : Place
  x        : Vector Word 32
  v        : Vector VWord 16
  m        : Vector MWord 8
  pc       : Word
  mode     : Mode
  fflags   : BitVec 5
  frm      : BitVec 2
  ftrap    : BitVec 5
  flagorg  : Word
  mult     : BitVec 32
  live     : BitVec 32
  wid      : Word
  widself  : Word
  lctx     : BitVec 16
  cell     : Word
  instret  : Word
  privbase : Word
  utvec    : Word
  uepc     : Word
  ucause   : Word
  uval     : Word
  uskip    : Word
  mxcfg    : Word
  mxcnt    : Word
  epc      : Word
  cause    : Word
  eval     : Word
  eskip    : Word
  emode    : Mode
  head     : Option Head
  window   : Option Window
  wait     : Option Wait
  wake     : Bool
  kind     : Nat
  again    : Bool
  trapUntil : Option Nat
  pending  : List Trap
  owed     : Option (Word × Trap)
  redo     : Option Word
  entered  : Entered
  lastIssue  : Option Nat
  lastRetire : Nat
  evalOf   : Option Nat
  copies   : Nat
  bound    : Nat
  preempt  : Bool
  skip     : Nat
  deriving DecidableEq, Repr

/-- Whether a thunk is pushed for a slot that R20 or R145 keeps for it. -/
inductive Keep where
  | no
  | slot (k : Nat)
  | first
  deriving DecidableEq, Repr

/-- What a deque entry starts (R282, R288, R283, R295). -/
inductive EntryKind where
  | task
  | range (lo hi : Nat)
  | thunk (cellPa : Nat) (cellPtr : Word) (serial : Nat) (keep : Keep)
  deriving DecidableEq, Repr

/-- A record in a deque (R288, R290): the copy the engine keeps. `record` holds the words of the record that was pushed, and `spill` the physical
address of the copy that stands in the spill region (R282). -/
structure DequeEntry where
  kind  : EntryKind
  entry : Word
  arg   : Word
  x11   : Word
  wid   : Word
  widself : Word
  prio  : Nat
  mult  : Nat
  lctx  : Nat
  record : List Word := []
  spill : Option Nat := none
  deriving DecidableEq, Repr

/-- A launch context that a core serves (R285, R286, R287). -/
structure Served where
  lctx    : Nat
  idx     : Nat
  csrs    : CtxCsrs
  deficit : Int
  starved : Nat
  deriving DecidableEq, Repr

/-- A TLB entry: one 64 KiB or 512 MiB page (R153). -/
structure TlbEntry where
  asid    : BitVec 16
  page    : Nat
  large   : Bool
  pte     : Word
  pteAddr : Nat
  deriving DecidableEq, Repr

/-- An accumulator tile (R227). -/
structure Tile where
  holder : Option Nat
  int    : Bool
  elems  : BitVec 40960
  clamp  : BitVec 1024
  deriving DecidableEq, Repr

/-- The copy request that a message comes from (R258, R263): its thread, the core whose command FIFO it came from, and whether the message is
the request's last. -/
structure CopyMark where
  tid  : Nat
  fifo : Nat
  last : Bool
  deriving DecidableEq, Repr

/-- A mailbox entry, or a posting held for a full mailbox (R263, R258). `copyOf` names the copy request that posts it. -/
structure Mail where
  slot   : Nat
  m0     : Word
  m1     : Word
  copyOf : Option CopyMark
  deriving DecidableEq, Repr

/-- A byte range whose lines a copy engine owns for one iteration of a request (R23): in DRAM or in a bank. -/
structure Owned where
  iter  : Nat
  dram  : Bool
  start : Nat
  len   : Nat
  deriving DecidableEq, Repr

/-- An accepted copy request: its place in acceptance order, the words of its tensor descriptor, the banks that it names,
its next iteration, and the destination lines it owns (R23, R250, R254). -/
structure CopyJob where
  req   : CopyReq
  seq   : Nat
  desc  : List Word
  banks : List Nat
  iter  : Nat
  owned : List Owned
  deriving DecidableEq, Repr

/-- A core. `broker` is its broker cache, newest page first, and `brokerOf` the physical address of the pool it serves with
the context whose draw filled it (R10, R88, R93, R148, R153, R227, R263, R282, R285, R357). -/
structure Core where
  ptr      : Nat
  ctxspill : Word
  ctxsplen : Word
  deqspill : Word
  wdog     : Word
  served   : List Served
  deque    : List DequeEntry
  tlb      : List TlbEntry
  icache   : SMap (BitVec 256)
  tiles    : Vector Tile 8
  mailbox  : List Mail
  held     : List Mail
  fifo     : List CopyReq
  broker   : List Word
  brokerOf : Option (Nat × CtxCsrs)
  victim   : Nat
  asked    : Nat
  chosen   : Nat
  retired  : Bool
  deriving DecidableEq, Repr

/-- The kind of a meet (R159). -/
inductive MeetKind where
  | timed
  | counted
  deriving DecidableEq, Repr

/-- The match key of a meet entry (R159). -/
structure MeetKey where
  pc       : Word
  lctx     : BitVec 16
  mode     : Mode
  live     : BitVec 32
  vals     : List Word
  frm      : BitVec 2
  ftrap    : BitVec 5
  mxcfg    : Word
  privbase : Word
  utvec    : Word
  cell     : Word
  deriving DecidableEq, Repr

/-- A meet table entry that is open or departed (R159); a free one is absent. `departed` holds the cycle of departure. -/
structure MeetEntry where
  hash      : Word
  key       : MeetKey
  kind      : MeetKind
  mult      : Nat
  wid       : Word
  flags     : BitVec 5
  org       : Option (Word × Word)
  counts    : List Nat
  owner     : Nat
  d         : Reg
  windowEnd : Nat
  collision : Bool
  merged    : Bool
  serial    : Nat
  departed  : Option Nat
  deriving DecidableEq, Repr

/-- A COUNTED instance counter (R166). -/
structure MeetInst where
  pc     : Word
  lctx   : BitVec 16
  target : Nat
  sum    : Nat
  deriving DecidableEq, Repr

/-- A member log binding: the SRAM address it writes next, the end of its bank, the records written, and lost (R171). -/
structure MeetLog where
  start : Nat
  count : Nat
  lost  : Bool
  deriving DecidableEq, Repr

/-- A meet table (R159). -/
structure Table where
  entries : SMap MeetEntry
  serial  : Nat
  insts   : List MeetInst
  log     : Option MeetLog
  deriving DecidableEq, Repr

/-- The state of a FIFO stage (R270). -/
inductive Stage where
  | free
  | reserved
  | published
  | acquired
  deriving DecidableEq, Repr

/-- The writer end of a channel (R270). A thread keeps its handle while it holds an end (R263), so that the number of the thread stands for
it. -/
inductive Writer where
  | unbound
  | copyEngine
  | thread (tid : Nat)
  deriving DecidableEq, Repr

/-- A channel (R270). `reader` is the number of the thread at that end. `wheld` and `rheld` are the stages that the thread at the writer end and at the reader end holds (R271). -/
structure Channel where
  size   : Nat
  writer : Writer
  reader : Option Nat
  stages : List Stage
  wn     : Nat
  rn     : Nat
  wheld  : Option Nat
  rheld  : Option Nat
  deriving DecidableEq, Repr

/-- What a bank is (R14). -/
inductive BankMode where
  | cache
  | scratch
  | fifo (c : Channel)
  | meet (t : Table)
  deriving DecidableEq, Repr

/-- A mode change that a bank has accepted (R15): the requested word, the thread that asked, and its place among the copy requests that
engines accept (R248, R272). -/
structure BankChange where
  word : Word
  tid  : Nat
  seq  : Nat
  deriving DecidableEq, Repr

/-- A bank: its mode, its configuration word (R249), and the mode changes accepted and not yet done, oldest first
(R15). `port` is the requester at which its port's round-robin pointer stands, `granted` the first cycle in which the port is free
again, and `engines` holds, for each copy engine that has moved bytes through the port, its place and the accesses it still makes (R92). -/
structure Bank where
  mode    : BankMode
  cfg     : Word
  changes : List BankChange
  port    : Nat
  granted : Nat
  engines : SMap Nat := []
  deriving DecidableEq, Repr

/-- A barrier (R266). `lowest` is the contributor of flags with the least WID: its WID, its handle and its thread
(R269). -/
structure Barrier where
  n       : Nat
  e0      : Nat
  c       : BitVec 5
  parity  : Bool
  arrived : Nat
  pending : Int
  flags   : BitVec 5
  lowest  : Option (Word × Nat × Nat)
  last    : BitVec 5
  deriving DecidableEq, Repr

/-- A cluster (R10, R148, R153, R260, R266, R365). `tlb` holds the ways of each set of its TLB, newest first. -/
structure Cluster where
  banks    : SMap Bank
  barriers : SMap Barrier
  jobs     : List CopyJob
  copyPtr  : Nat
  tlb      : SMap (List TlbEntry)
  partId   : Nat
  doorbell : Bool
  retired  : Bool
  deriving DecidableEq, Repr

/-- A die (R377, R380, R302). `ports` holds, for each slice, the request port at which its round-robin pointer stands. -/
structure Die where
  throttle : Nat
  watts    : Nat
  slices   : List Nat
  lanes    : List Nat
  channels : List Nat
  ports    : SMap Nat
  deriving DecidableEq, Repr

/-- The fields of a launch header (R275). -/
structure Header where
  entry     : Word
  arg       : Word
  widths    : List Nat
  det       : Bool
  strict    : Bool
  replay    : Bool
  syscomp   : Bool
  extents   : List Nat
  events    : Nat
  target    : Word
  dep0      : Word
  dep1      : Word
  weight    : Nat
  diemask   : BitVec 4
  banks     : BitVec 32
  staging   : Word
  stagesize : Nat
  deriving DecidableEq, Repr

/-- A staged operation (R310, R312). `spill` is the staging address of a record written to the staging area, and `places` the
places of its words (R313). -/
structure Staged where
  wid   : Word
  seqno : Nat
  op    : BitVec 8
  frm   : BitVec 8
  pa    : Nat
  mult  : Nat
  b     : Word
  c     : Word
  o     : List (BitVec 32)
  blocks : List Nat
  spill : Option Word
  places : List Loc
  deriving DecidableEq, Repr

/-- A live launch (R278, R280, R281, R293, R312). `leaves` holds each leaf that a push has charged: its linear index, its
count and the die of its node table entry; `closed` the linear indices of the closed leaves, and `events` the node events of a
replayable launch, which its completing run posts (R382): their levels and work identifiers. -/
structure Launch where
  hdr      : Header
  x11      : Word
  csrs     : CtxCsrs
  issuer   : Nat
  core     : Nat
  total    : Nat
  leaves   : SMap (Nat × Nat)
  closed   : List Nat
  lastCore : Nat
  done     : Bool
  budget   : Nat
  area     : Nat
  staged   : List Staged
  events   : List (Nat × Word)
  deriving DecidableEq, Repr

/-- An evaluation entry (R321, R323, R324): the cell's physical address is its key. -/
structure Eval where
  serial  : Nat
  waitsOn : Option Nat
  waiters : List Nat
  deriving DecidableEq, Repr

/-- A line's directory state (R301). -/
inductive DirState where
  | shared (cores : List Nat)
  | coarse (clusters : List Nat)
  | ownedCore (core : Nat)
  | ownedCluster (cluster : Nat)
  deriving DecidableEq, Repr

/-- Event codes of Helben's log (R378); the spec gives them no numbers (log 12). -/
inductive LogCode where
  | halt | machineCheck | contextSwapError | implicitCfail | copyFault | dependant (c : Cause) | stagingSkipped
  | stagingUncorrectable | vectorDropped | hostRefused | linkTrained | linkReset | retired (p : Part) | lifted (p : Part)
  | bootFailed | supervisorFailed | firmware | uncorrectable | throttle | sensor | replay | haltLimit
  | interrupted | corrected | mirror
  deriving DecidableEq, Repr

/-- A record of Helben's event log (R378): nanoseconds since the package reset, the event, its die [1:0], cluster [7:2] and core
[12:8], the thread handle or 0, and two values. -/
structure LogRec where
  nanos  : Nat
  code   : LogCode
  unit   : BitVec 16
  handle : Nat
  v1     : Word
  v2     : Word
  deriving DecidableEq, Repr

/-- A halted partition (R149). -/
structure HaltRec where
  stop   : Bool
  reason : Word
  since  : Nat
  deriving DecidableEq, Repr

/-- A swapped-out partition's shadow image (R150). Its threads stay in `State.threads`, placed `swapped`, so that a wake
reaches their records. -/
structure Shadow where
  clusters : SMap Cluster
  cores    : SMap Core
  sram     : Memory
  badSram  : SMap (BitVec 8)
  halt     : HaltRec
  good     : Bool
  deriving DecidableEq, Repr

/-- A journal record (R381): `phase` is 0 while its launch runs, 1 once a failure has interrupted and ended it and 2 while it is run
again (R382); `copies` are the dies that hold a copy of it. -/
structure Journal where
  lctx   : Nat
  phase  : Nat
  launch : Launch
  copies : List Nat
  deriving DecidableEq, Repr

/-- Helben (R149, R150, R357, R374 to R382): among it whether an image that a boot has tried was replaced before it was confirmed (R375), the last sample of its sensors (R378) and the dies that have failed (R381). -/
structure Helben where
  log      : List LogRec
  cap      : Nat
  haltLim  : Nat
  watch    : SMap (List Word)
  halts    : SMap HaltRec
  shadows  : SMap Shadow
  active   : Nat
  versions : List Nat
  running  : Nat
  pendingSlot : Option Nat
  tried    : Bool
  missed   : Bool
  rollback : Nat
  booted   : Bool
  recovery : Bool
  step     : Nat
  journal  : List Journal
  hostAsid : BitVec 16
  hostRoot : Word
  remotes  : SMap Word
  hot      : List Nat
  temps    : List Nat
  rails    : List Nat
  coolant  : Nat
  dead     : List Nat
  deriving DecidableEq, Repr

/-- The PCIe endpoint as the machine holds it (R364, R366): MSI-X table bytes, pending vectors, interrupts sent (newest
first), the host's last completion: its data, or none for Unsupported Request, and the trained width and rate (R363). -/
structure HostLink where
  msix     : Memory
  pending  : List Nat
  sent     : List Nat
  reply    : Option Nat
  width    : Nat
  rate     : Nat
  deriving DecidableEq, Repr

/-- The response to a request of another package (R372): its value, or the cause for which it is refused. -/
inductive Reply where
  | done (v : Word)
  | refused (c : Cause)
  deriving DecidableEq, Repr

/-- The fabric (R368 to R371). `replays` counts each link's consecutive replays of one flit, `resetAt` holds the cycles of its resets that a response may still wait
for, `rings` the packages on each dimension's ring, `seen` the sequence numbers that each package's requests have used (R369), `answer` the response to the last request of another package, and `staged` the operations of other packages' launches that wait here for
their completion, each with its package and launch context (R309). -/
structure Fabric where
  torus   : Bool
  device  : Nat
  live    : List Nat
  dims    : List Nat
  replays : SMap Nat
  resetAt : SMap (List Nat)
  rings   : List Nat
  seen    : SMap (List Nat)
  answer  : Option Reply
  staged  : List ((Nat × Nat) × Staged) := []
  deriving DecidableEq, Repr

/-- A write of a device's engine that waits for a copy engine's line, or for the mode change of its bank (R15, R23): words of memory, a
record of a member log, or an implicit CFAIL. -/
inductive Late where
  | words (pa : Nat) (ws : List Word)
  | log (key : Nat) (ws : List Word)
  | cfail (pa : Nat) (code : Word)
  deriving DecidableEq, Repr

/-- A thread that has ended in this cycle and whose leaf loses one after every push of the cycle (R298): its launch context, its work
identifier and its core. -/
structure Ended where
  lctx : Nat
  wid  : Word
  core : Nat
  deriving DecidableEq, Repr

/-- The package. `late` holds the engines' writes that wait, oldest first, and `ended` the threads that have ended in this cycle. `issued` holds the cores that have spent this cycle's issue, and `phase` how far the cycle has come: 0 while cores
issue, 1 while the engines act, and 2 more than the number of the barrier checked last at its end. -/
structure State where
  cycle    : Nat
  cur      : Nat
  issued   : List Nat
  phase    : Nat
  rot      : Nat
  agenda   : List Instr
  free     : Nat
  nextTid  : Nat
  seq      : Nat
  threads  : SMap Thread
  cores    : SMap Core
  clusters : SMap Cluster
  dies     : SMap Die
  launches : SMap Launch
  mem      : Memory
  sram     : Memory
  tags     : SMap (BitVec 2)
  bad      : SMap (BitVec 32)
  badSram  : SMap (BitVec 8)
  evals    : SMap Eval
  dir      : SMap DirState
  late     : List Late := []
  ended    : List Ended := []
  helben   : Helben
  host     : HostLink
  fabric   : Fabric
  deriving DecidableEq, Repr

/-- A tile at device reset (R227): free, FP40, all +0, clamp bits clear. -/
def Tile.reset : Tile := { holder := none, int := false, elems := 0, clamp := 0 }

/-- The context CSRs of launch context 0 before the supervisor writes them: the spec gives none (log 8). -/
def CtxCsrs.reset : CtxCsrs := { tvec := 0, deleg := 0, asid := 0, ptbase := 0 }

/-- A core at device reset (R88, R148, R227). -/
def Core.reset : Core :=
  { ptr := 0, ctxspill := 0, ctxsplen := 0, deqspill := 0, wdog := 0, served := [], deque := [], tlb := [], icache := [],
    tiles := Vector.replicate 8 Tile.reset, mailbox := [], held := [], fifo := [], broker := [], brokerOf := none,
    victim := 0, asked := 0, chosen := 0, retired := false }

/-- A bank at reset: CACHE mode (R14); its configuration reads 0 (R252). -/
def Bank.reset : Bank := { mode := .cache, cfg := 0, changes := [], port := 0, granted := 0, engines := [] }

/-- A barrier at reset (R266). -/
def Barrier.reset : Barrier :=
  { n := 0, e0 := 0, c := 0, parity := false, arrived := 0, pending := 0, flags := 0, lowest := none, last := 0 }

/-- A cluster at device reset (R14, R148, R260). -/
def Cluster.reset : Cluster :=
  { banks := [], barriers := [], jobs := [], copyPtr := 0, tlb := [], partId := 0, doorbell := false, retired := false }

/-- A die at device reset: every slice's pointer stands at the port of cluster 0 (R302). -/
def Die.reset : Die := { throttle := 0, watts := 0, slices := [], lanes := [], channels := [], ports := [] }

/-- A thread as R86 and R95 set it at binding, but for what its record gives. -/
def Thread.reset (place : Place) (tid cycle : Nat) : Thread :=
  { place := place, x := Vector.replicate 32 0, v := Vector.replicate 16 0, m := Vector.replicate 8 0, pc := 0,
    mode := .user, fflags := 0, frm := 0, ftrap := 0, flagorg := 0, mult := 1, live := 0, wid := 0, widself := 0, lctx := 0,
    cell := 0, instret := 0, privbase := 0, utvec := 0, uepc := 0, ucause := 0, uval := 0, uskip := 0, mxcfg := 0,
    mxcnt := 0, epc := 0, cause := 0, eval := 0, eskip := 0, emode := .user, head := none, window := none, wait := none, wake := false, kind := 0,
    again := false,
    trapUntil := none, pending := [], owed := none, redo := none, entered := .no, lastIssue := none, lastRetire := cycle / 16,
    evalOf := none, copies := 0, bound := tid, preempt := false, skip := 0 }

/-- Helben at power-on (R374, R376): the halt limit's default is 2 ^ 22 cycles and the cap's limit 1,800 W. -/
def Helben.reset : Helben :=
  { log := [], cap := 1800, haltLim := 4194304, watch := [], halts := [], shadows := [],
    active := 0, versions := [0, 0], running := 0, pendingSlot := none, tried := false, missed := false, rollback := 0, booted := false, recovery := false, step := 0,
    journal := [], hostAsid := 0, hostRoot := 0, remotes := [], hot := [], temps := [], rails := [], coolant := 0,
    dead := [] }

/-- The machine right after device reset: every slot EMPTY (R85), every bank in CACHE mode (R14), the cycle count 0 (R95),
memory zero with every tag VALUE (R317, R374). -/
def State.reset : State :=
  { cycle := 0, cur := 0, issued := [], phase := 0, rot := 1, agenda := [], free := 0, nextTid := 0, seq := 0, threads := [], cores := [],
    clusters := [], dies := [], launches := [], mem := [], sram := [], tags := [], bad := [], badSram := [], evals := [], dir := [], late := [], ended := [],
    helben := Helben.reset,
    host := { msix := [], pending := [], sent := [], reply := none, width := 0, rate := 0 },
    fabric := { torus := false, device := 0, live := [], dims := [], replays := [], resetAt := [], rings := [], seen := [],
                answer := none } }

end Sys2Proof.Machine
end

