-- ==== Sys2Proof/Machine/Ops.lean ====
section
/-!
DEFINITION. The named operations over the state: sparse tables, memory and its tags, registers, handles, the retirement
of an instruction, taking a trap (R134 to R137), returning from one (R127), and the ways a thread ends.
-/
namespace Sys2Proof.Machine

/-- What a meaning answers. -/
abbrev Outcome := Host.Outcome State Fault Refusal

/-! ### Sparse tables -/

/-- The value at a key. -/
def SMap.find {α : Type} : SMap α → Nat → Option α
  | [], _ => none
  | (k, v) :: rest, key => if k = key then some v else SMap.find rest key

/-- Writes a value at a key, keeping the keys in rising order. -/
def SMap.put {α : Type} : SMap α → Nat → α → SMap α
  | [], key, v => [(key, v)]
  | (k, w) :: rest, key, v =>
    if key < k then (key, v) :: (k, w) :: rest
    else if key = k then (k, v) :: rest
    else (k, w) :: SMap.put rest key v

/-- Removes a key. -/
def SMap.drop {α : Type} : SMap α → Nat → SMap α
  | [], _ => []
  | (k, w) :: rest, key => if k = key then rest else (k, w) :: SMap.drop rest key

/-! ### Memory bytes -/

/-- What an unlisted address reads as (R374 step 2). -/
def Memory.blank : Byte := 0

/-- The byte at an address. -/
def Memory.read : Memory → Nat → Byte
  | [], _ => Memory.blank
  | (k, v) :: rest, a => if k = a then v else Memory.read rest a

/-- Writes a byte, keeping the canonical form. -/
def Memory.write : Memory → Nat → Byte → Memory
  | [], a, b => if b = Memory.blank then [] else [(a, b)]
  | (k, v) :: rest, a, b =>
    if a < k then (if b = Memory.blank then (k, v) :: rest else (a, b) :: (k, v) :: rest)
    else if a = k then (if b = Memory.blank then rest else (k, b) :: rest)
    else (k, v) :: Memory.write rest a b

/-- The n bytes at an address as a little-endian number (R2, R45). -/
def Memory.readLE (m : Memory) (a : Nat) : Nat → Nat
  | 0 => 0
  | n + 1 => (m.read a).toNat + 256 * Memory.readLE m (a + 1) n

/-- Writes the low n bytes of a number little-endian. -/
def Memory.writeLE (m : Memory) (a : Nat) : Nat → Nat → Memory
  | 0, _ => m
  | n + 1, v => Memory.writeLE (m.write a (BitVec.ofNat 8 v)) (a + 1) n (v / 256)

/-- All addresses of the list lie above a bound and no entry is blank. -/
def Memory.wfFrom : Nat → Memory → Bool
  | _, [] => true
  | lo, (k, v) :: rest => decide (lo ≤ k) && decide (v ≠ Memory.blank) && Memory.wfFrom (k + 1) rest

/-- The canonical form: addresses strictly rising, no entry equal to what an unlisted address reads as. -/
def Memory.wf (m : Memory) : Bool := Memory.wfFrom 0 m

/-! ### The parts of the package -/

/-- The first physical address above the DRAM of die 3 (R373). -/
def dramEnd : Nat := 0x3000000000

/-- The die whose DRAM holds a physical address (R373). -/
def dieOfPa (pa : Nat) : Nat :=
  if pa < 0x800000000 then 0 else if pa < 0x1000000000 then 1 else if pa < 0x2000000000 then 2 else 3

/-- Whether a physical address lies in the GiB that Helben keeps at the top of each die's range, or above DRAM (R373). -/
def paReserved (pa : Nat) : Bool :=
  decide (dramEnd ≤ pa) || (decide (0x7C0000000 ≤ pa) && decide (pa < 0x800000000))
    || (decide (0xFC0000000 ≤ pa) && decide (pa < 0x1000000000))
    || (decide (0x1FC0000000 ≤ pa) && decide (pa < 0x2000000000))
    || decide (0x2FC0000000 ≤ pa)

/-- The core that a thread handle names, die * 1152 + cluster * 32 + core (R9). -/
def coreOfHandle (h : Nat) : Nat := h / 32768 % 4 * 1152 + h / 512 % 64 * 32 + h / 16 % 32
/-- The slot that a thread handle names (R9). -/
def slotOfHandle (h : Nat) : Nat := h % 16
/-- The handle of a slot of a core (R9). -/
def handleOf (core slot : Nat) : Nat := core / 1152 * 32768 + core / 32 % 36 * 512 + core % 32 * 16 + slot
/-- The die of a core. -/
def dieOfCore (core : Nat) : Nat := core / 1152
/-- The cluster of a core, die * 36 + cluster. -/
def clusterOfCore (core : Nat) : Nat := core / 32
/-- The CORE CSR of a core: die [12:11], cluster [10:5], core [4:0] (R95). -/
def coreCsrOf (core : Nat) : Nat := handleOf core 0 / 16
/-- The core that a value in the CORE layout names, if its cluster field is 0 to 35 (R95). -/
def coreOfCsr (v : Nat) : Option Nat :=
  if v < 8192 ∧ v / 32 % 64 < 36 then some (coreOfHandle (v * 16)) else none

/-! ### Accessors -/

def State.thread (s : State) (t : Nat) : Option Thread := s.threads.find t
def State.putThread (s : State) (t : Nat) (th : Thread) : State := { s with threads := s.threads.put t th }
def State.dropThread (s : State) (t : Nat) : State := { s with threads := s.threads.drop t }
def State.core (s : State) (c : Nat) : Core := (s.cores.find c).getD Core.reset
def State.putCore (s : State) (c : Nat) (x : Core) : State := { s with cores := s.cores.put c x }
def State.cluster (s : State) (c : Nat) : Cluster := (s.clusters.find c).getD Cluster.reset
def State.putCluster (s : State) (c : Nat) (x : Cluster) : State := { s with clusters := s.clusters.put c x }
def State.die (s : State) (d : Nat) : Die := (s.dies.find d).getD Die.reset
def State.putDie (s : State) (d : Nat) (x : Die) : State := { s with dies := s.dies.put d x }
def State.launch (s : State) (l : Nat) : Option Launch := s.launches.find l
def State.putLaunch (s : State) (l : Nat) (x : Launch) : State := { s with launches := s.launches.put l x }
/-- A bank by its number cluster * 32 + bank. -/
def State.bank (s : State) (b : Nat) : Bank := ((s.cluster (b / 32)).banks.find (b % 32)).getD Bank.reset
def State.putBank (s : State) (b : Nat) (x : Bank) : State :=
  let c := s.cluster (b / 32)
  s.putCluster (b / 32) { c with banks := c.banks.put (b % 32) x }
def State.barrier (s : State) (cluster id : Nat) : Barrier := ((s.cluster cluster).barriers.find id).getD Barrier.reset
def State.putBarrier (s : State) (cluster id : Nat) (x : Barrier) : State :=
  let c := s.cluster cluster
  s.putCluster cluster { c with barriers := c.barriers.put id x }
def State.modHelben (s : State) (f : Helben → Helben) : State := { s with helben := f s.helben }

/-- The handle of the slot that a thread is bound to, left, or is about to enter. A thread of a partition that is swapped out
has none: its number lies above the handles (R9). -/
def Place.handle : Place → Nat
  | .slot h => h
  | .cached h => h
  | .spilled h _ => h
  | .out h _ => h
  | .arriving h => h
  | .swapped _ _ h _ => h + 131072

/-- Whether a thread is bound in its slot. -/
def Thread.isBound (th : Thread) : Bool :=
  match th.place with
  | .slot _ => true
  | _ => false

/-- The core a thread is bound, parked or saved on. -/
def Thread.core (th : Thread) : Nat := coreOfHandle th.place.handle

/-- The thread whose instruction `exec` runs, if it is bound. -/
def State.current (s : State) : Option Thread :=
  match s.thread s.cur with
  | some th => if th.isBound then some th else none
  | none => none

/-- The thread bound in a slot. -/
def State.inSlot (s : State) (handle : Nat) : Option (Nat × Thread) :=
  s.threads.find? (fun p => p.2.place == .slot handle)

/-- The context CSRs that govern a thread (R95). -/
def State.csrsOf (s : State) (th : Thread) : CtxCsrs :=
  match (s.core th.core).served.find? (fun c => c.lctx == th.lctx.toNat) with
  | some c => c.csrs
  | none => CtxCsrs.reset

/-- Writes the context CSRs of a thread's context on its core (R96). -/
def State.setCsrsOf (s : State) (th : Thread) (v : CtxCsrs) : State :=
  let c := s.core th.core
  s.putCore th.core
    { c with served := c.served.map (fun x => if x.lctx == th.lctx.toNat then { x with csrs := v } else x) }

/-! ### Registers -/

/-- A read of an x register: x0 reads 0 (R94). -/
def Thread.getX (th : Thread) (r : Reg) : Word := if r = 0 then 0 else th.x[r.toNat]'(r.isLt)
/-- A write of an x register: x0 ignores it (R94). -/
def Thread.setX (th : Thread) (r : Reg) (v : Word) : Thread :=
  if r = 0 then th else { th with x := th.x.set r.toNat v r.isLt }
/-- A read of a v register. -/
def Thread.getV (th : Thread) (r : VReg) : VWord := th.v[r.toNat]'(r.isLt)
/-- A write of a v register. -/
def Thread.setV (th : Thread) (r : VReg) (v : VWord) : Thread := { th with v := th.v.set r.toNat v r.isLt }
/-- A read of an m register: m0 reads all ones (R94). -/
def Thread.getM (th : Thread) (r : MReg) : MWord := if r = 0 then BitVec.allOnes 256 else th.m[r.toNat]'(r.isLt)
/-- A write of an m register: m0 ignores it (R94). -/
def Thread.setM (th : Thread) (r : MReg) (v : MWord) : Thread :=
  if r = 0 then th else { th with m := th.m.set r.toNat v r.isLt }

/-! ### Retirement -/

/-- The instruction at the PC retires and the thread goes on at `target`; an instruction that TRET runs with a skip keeps
its effect on the PC out (R127). -/
def Thread.retireTo (th : Thread) (cycle : Nat) (target : Word) : Thread :=
  { th with pc := th.redo.getD target, redo := none, instret := th.instret + 1, lastRetire := cycle / 16, entered := .no,
            wait := none }

/-- The instruction at the PC retires and the next one follows it. -/
def Thread.retire (th : Thread) (cycle : Nat) : Thread := th.retireTo cycle (th.pc + 4)

/-- A shadow that retires under an outstanding head is counted (R57) and takes a place in the window (R53). -/
def Thread.countShadow (th : Thread) : Thread :=
  { th with head := th.head.map (fun h => { h with retired := h.retired + 1 }),
            window := match th.window with
              | some w => if w.left ≤ 1 then none else some { w with left := w.left - 1 }
              | none => none }

/-- The thread's window ends (R53). -/
def Thread.endWindow (th : Thread) : Thread := { th with window := none }

/-- A long-class instruction that waits for its completion event issues: it keeps its place in program order in `head`,
the thread's PC moves past it, and the window it opens is that of its la (R53, R54). -/
def Thread.issueHead (th : Thread) (cycle : Nat) (op : HeadOp) (dest : Dest) (la : Nat) (reads : List Nat := []) : Thread :=
  { th with
      head := some { pc := th.pc, next := th.redo.getD (th.pc + 4), since := cycle, retired := 0, op := op, reads := reads },
      window := if la = 0 ∨ th.redo.isSome then none else some { headPc := th.pc, dest := dest, left := la },
      pc := th.redo.getD (th.pc + 4), redo := none, entered := .no }

/-- The outstanding head completes and retires. -/
def Thread.completeHead (th : Thread) (cycle : Nat) : Thread :=
  { th with head := none, instret := th.instret + 1, lastRetire := cycle / 16 }

/-! ### Causes and traps -/

/-- The code of a cause (R138). -/
def Cause.code : Cause → Nat
  | .illegalOpcode => 0 | .reservedField => 1 | .privileged => 2 | .lookaheadHazard => 3
  | .misalignedFetch => 4 | .fetchFault => 5 | .breakpoint => 6 | .ecallUser => 7
  | .ecallSupervisor => 8 | .divZero => 9 | .fpInvalid => 10 | .fpDivzero => 11
  | .fpOverflow => 12 | .fpUnderflow => 13 | .fpInexact => 14 | .barrierFpCollected => 15
  | .loadMisaligned => 16 | .storeMisaligned => 17 | .loadPageFault => 18 | .storePageFault => 19
  | .loadProtection => 20 | .storeProtection => 21 | .spaceInvalid => 22 | .remoteUnreachable => 23
  | .uncorrectableData => 24 | .attributeConflict => 25 | .determinismViolation => 26 | .dStagingFull => 27
  | .kvSharedWrite => 28 | .kvNotOwner => 29 | .kvEscrowEmpty => 30 | .kvPoolInvalid => 31
  | .meetMultOverflow => 32 | .meetLiveMask => 33 | .meetTableInvalid => 34 | .joinUnderflow => 35
  | .dequeSpillFull => 36 | .launchHeaderInvalid => 37 | .taskRecordInvalid => 38 | .contextRecordInvalid => 39
  | .selfDependence => 40 | .suspensionFailed => 41 | .cellBusyWrite => 42 | .thunkInvalid => 43
  | .mailboxInvalid => 44 | .barrierMisuse => 45 | .channelMisuse => 46 | .bankModeMismatch => 47
  | .copyRequestInvalid => 48 | .copyFault => 49 | .matrixTileNotHeld => 50 | .matrixFormatInvalid => 51
  | .mintDecodeError => 52 | .datapathCheck => 53 | .watchdog => 54 | .haltedByManagement => 55
  | .debugStep => 56 | .debugWatch => 57 | .pageTableCorrupt => 58 | .linkReset => 59
  | .instructionUncorrectable => 60 | .csrInvalid => 61 | .contextSwapError => 62 | .machineCheck => 63

/-- The DELEG bits that are fixed at zero (R135): causes 2, 8, 39 and 53 to 63. -/
def delegFixed : Word := 0xFFE0008000000104

/-- The three causes of a fetch (R136). -/
def Cause.ofFetch : Cause → Bool
  | .fetchFault => true
  | .misalignedFetch => true
  | .instructionUncorrectable => true
  | _ => false

/-- Whether a trap of a thread enters at UTVEC (R134, R135, R136). A fetch trap at the UTVEC address never does, also after a supervisor's
TRET to it (log 66). -/
def delegated (csrs : CtxCsrs) (th : Thread) (c : Cause) : Bool :=
  th.mode == .user && (csrs.deleg &&& ~~~delegFixed).getLsbD c.code && th.utvec != 0
    && !((th.entered == .user || th.pc == th.utvec) && c.ofFetch)

/-- The thread after trap entry (R134): `pc` is the trapping instruction's address. Its window, its re-execution state
and what it waited for end; the slot is TRAPPING for 16 cycles (R85). -/
def Thread.enterTrap (th : Thread) (csrs : CtxCsrs) (cycle : Nat) (pc : Word) (tr : Trap) (skip : Word) : Thread :=
  let base := { th with head := none, window := none, wait := none, redo := none, trapUntil := some (cycle + 16) }
  if delegated csrs th tr.cause then
    { base with uepc := pc, ucause := BitVec.ofNat 64 tr.cause.code, uval := tr.val, uskip := skip, pc := th.utvec,
                entered := .user }
  else
    { base with epc := pc, cause := BitVec.ofNat 64 tr.cause.code, eval := tr.val, eskip := skip, emode := th.mode,
                mode := .supervisor, pc := csrs.tvec, entered := .supervisor }

/-- Nanoseconds since the package reset: cycles of 940 MHz, rounded down (R2, R378; log 12). -/
def State.nanos (s : State) : Nat := s.cycle * 50 / 47

/-- The die [1:0], cluster [7:2] and core [12:8] of a handle, as a log record holds them (R378). -/
def unitOf (handle : Nat) : BitVec 16 :=
  BitVec.ofNat 16 (handle / 32768 % 4 + handle / 512 % 64 * 4 + handle / 16 % 32 * 256)

/-- Helben logs an event of a part that is no thread (R378): it keeps the newest 65,536 records, newest first. -/
def State.logAt (s : State) (code : LogCode) (unit : BitVec 16) (handle : Nat) (v1 v2 : Word) : State :=
  s.modHelben (fun h =>
    { h with log := ({ nanos := s.nanos, code := code, unit := unit, handle := handle, v1 := v1, v2 := v2 } :: h.log).take 65536 })

/-- Helben logs an event of a handle's thread, or of no part for 0 (R378). -/
def State.logEvent (s : State) (code : LogCode) (handle : Nat) (v1 v2 : Word) : State :=
  s.logAt code (unitOf handle) handle v1 v2

/-! ### Suspension cells: the slice's part (R317 to R328) -/

/-- The tag of the aligned 8-byte word that holds a physical address: 0 VALUE, 1 SUSPENDED, 2 EVALUATING, 3 FAILED
(R317). -/
def State.tag (s : State) (pa : Nat) : BitVec 2 := (s.tags.find (pa / 8)).getD 0

/-- Writes the tag of a word. -/
def State.setTag (s : State) (pa : Nat) (t : BitVec 2) : State :=
  { s with tags := if t = 0 then s.tags.drop (pa / 8) else s.tags.put (pa / 8) t }

/-- Sets the tags of the words that n bytes from a physical address touch to VALUE, but for the word numbered `keep`
(R317, R319). -/
def clearTags (tags : SMap (BitVec 2)) (keep : Option Nat) (pa n : Nat) : SMap (BitVec 2) :=
  tags.filter (fun p => decide (p.1 < pa / 8) || decide ((pa + n - 1) / 8 < p.1) || keep == some p.1)

/-- The bytes of a line that a store of n bytes at a physical address writes, as a mask. -/
def lineMask (line pa n : Nat) : BitVec 32 :=
  (List.range 32).foldl
    (fun m i => if pa ≤ line * 32 + i ∧ line * 32 + i < pa + n then m ||| (1 <<< i) else m) (0 : BitVec 32)

/-- A line that holds uncorrectable data stays so marked until all 32 of its bytes are written (R119). -/
def clearBad (bad : SMap (BitVec 32)) (pa n : Nat) : SMap (BitVec 32) :=
  (bad.map (fun p => (p.1, p.2 &&& ~~~ (lineMask p.1 pa n)))).filter (fun p => p.2 != 0)

/-- Whether some byte of n bytes at a physical address lies in a line marked uncorrectable. -/
def State.isBad (s : State) (pa n : Nat) : Bool :=
  s.bad.any (fun p => decide (pa / 32 ≤ p.1) && decide (p.1 ≤ (pa + n - 1) / 32))

/-- The directory after a write of n bytes at a physical address: the copies of its lines are invalidated or written back first, so
that the lines are Uncached (R301). -/
def recallDir (dir : SMap DirState) (pa n : Nat) : SMap DirState :=
  dir.filter (fun p => decide (p.1 < pa / 32) || decide ((pa + n - 1) / 32 < p.1))

/-- A store of the low n bytes of a number to DRAM: bytes, tags, marks and the directory. `keep` names the word whose tag an
evaluator's own store leaves EVALUATING (R319). -/
def State.storePa (s : State) (keep : Option Nat) (pa n v : Nat) : State :=
  { s with mem := s.mem.writeLE pa n v, tags := clearTags s.tags keep pa n, bad := clearBad s.bad pa n,
           dir := recallDir s.dir pa n }

/-- Whether some byte of n bytes at a place of SRAM lies in a word that holds an uncorrectable error (R379). -/
def State.isBadSram (s : State) (key n : Nat) : Bool :=
  s.badSram.any (fun p => decide (key / 8 ≤ p.1) && decide (p.1 ≤ (key + n - 1) / 8))

/-- An SRAM word stays uncorrectable until its 8 bytes are written (R379; log 57). -/
def clearBadSram (bad : SMap (BitVec 8)) (key n : Nat) : SMap (BitVec 8) :=
  (bad.map (fun p => (p.1, (List.range 8).foldl (fun (m : BitVec 8) i =>
    if key ≤ p.1 * 8 + i ∧ p.1 * 8 + i < key + n then m &&& ~~~ ((1 : BitVec 8) <<< i) else m) p.2))).filter (fun p => p.2 != 0)

/-- A store of the low n bytes of a number to SRAM. -/
def State.storeSram (s : State) (key n v : Nat) : State :=
  { s with sram := s.sram.writeLE key n v, badSram := clearBadSram s.badSram key n }

/-! ### Lines that a copy engine owns (R23), and the engines' writes that wait -/

/-- Whether some line of n bytes at an address of DRAM or of a bank is a line of an owned range. -/
def Owned.meets (o : Owned) (dram : Bool) (a n : Nat) : Bool :=
  o.dram == dram && decide (a / 32 * 32 < o.start + o.len) && decide (o.start / 32 * 32 < a + n)

/-- Whether a copy engine owns a line of n bytes at an address of DRAM or of a bank (R23). -/
def ownedAt (s : State) (dram : Bool) (a n : Nat) : Bool :=
  s.clusters.any (fun c => c.2.jobs.any (fun j => j.owned.any (fun o => o.meets dram a n)))

/-- Writes words at rising physical addresses. -/
def storeWordsPa (s : State) (pa : Nat) : List Word → State
  | [] => s
  | w :: rest => storeWordsPa (s.storePa none pa 8 w.toNat) (pa + 8) rest

/-- What a waiting write waits for: whether its bytes are of DRAM, their address and their number. -/
def Late.span : Late → Bool × Nat × Nat
  | .words pa ws => (true, pa, 8 * ws.length)
  | .log key ws => (false, key, 8 * ws.length)
  | .cfail pa _ => (true, pa, 8)

/-- Whether an engine's write must wait: a copy engine owns one of its lines (R23), its bank has a mode change in progress (R15), or an
earlier write of those bytes waits. -/
def Late.waits (s : State) (l : Late) : Bool :=
  let p := l.span
  ownedAt s p.1 p.2.1 p.2.2 || (!p.1 && (s.bank (p.2.1 / 2 ^ 17)).changes != [])
    || s.late.any (fun x => x.span.1 == p.1 && decide (x.span.2.1 < p.2.1 + p.2.2) && decide (p.2.1 < x.span.2.1 + x.span.2.2))

/-- An engine writes words of memory: at once, or when a copy engine has written the lines (R23). -/
def writeLater (s : State) (pa : Nat) (ws : List Word) : State :=
  let l := Late.words pa ws
  if l.waits s then { s with late := s.late ++ [l] } else storeWordsPa s pa ws

/-- A table writes a record of its member log: at once, or once the bank's mode change is done or a copy engine has written the lines
(R15, R23, R171). -/
def logLater (s : State) (key : Nat) (ws : List Word) : State :=
  let l := Late.log key ws
  if l.waits s then { s with late := s.late ++ [l] } else storeLog s key ws
where
  /-- The record's words one after the other. -/
  storeLog (s : State) (key : Nat) : List Word → State
    | [] => s
    | w :: rest => storeLog (s.storeSram key 8 w.toNat) (key + 8) rest

/-! ### Context records (R99) and the end of a wait -/

/-- The park kind of a wait (R99): 0 none, 1 meet, 2 mailbox, 3 suspension, 4 barrier, 5 FIFO. -/
def Wait.parkKind : Wait → Nat
  | .meet _ _ _ => 1
  | .recv _ => 2
  | .waitm _ _ => 2
  | .cell _ _ _ => 3
  | .barw _ _ _ _ => 4
  | .qres _ _ _ => 5
  | .qacq _ _ _ => 5
  | _ => 0

/-- Field i (from 1) of a work identifier under the widths of its launch (R97, R98). -/
def wfOf (widths : List Nat) (wid : Word) (i : Nat) : Word :=
  match widths[i - 1]? with
  | some w => BitVec.ofNat 64 (wid.toNat / 2 ^ ((widths.drop i).foldl (· + ·) 0) % 2 ^ w)
  | none => 0

/-- The widths of a thread's launch; launch context 0 has none. -/
def widthsOf (s : State) (th : Thread) : List Nat := ((s.launch th.lctx.toNat).map (·.hdr.widths)).getD []

/-- The LCTX CSR: [15:0] the context number, [17:16] its core-local index (R95). -/
def lctxCsr (s : State) (th : Thread) : Word :=
  let idx := (((s.core th.core).served.find? (fun c => c.lctx == th.lctx.toNat)).map (·.idx)).getD 0
  BitVec.ofNat 64 (th.lctx.toNat + idx * 65536)

/-- 0 user, 1 supervisor (R95 EMODE). -/
def Mode.code : Mode → Word
  | .user => 0
  | .supervisor => 1
def Mode.ofBit (b : Bool) : Mode := if b then .supervisor else .user

/-- How many tiles of its core a thread holds: the spec says 'tiles held' of the field of a record and not whether it is their number
or a mask of the 8 tiles; the model takes their number (R99; log 58). -/
def State.tilesHeld (s : State) (t : Nat) (th : Thread) : Nat :=
  ((s.core th.core).tiles.toList.filter (fun x => x.holder == some t)).length

/-- Whether a saved thread's wait ended with a result: its record shows the instruction that waited as not yet retired, and a restore
retires it (R100; log 58). -/
def Thread.delivered (th : Thread) : Bool := th.wake && !th.again

/-- The STATE word of a record (R99). -/
def stateWord (s : State) (t : Nat) (th : Thread) : Word :=
  let kind := if th.wake then th.kind else (th.wait.map Wait.parkKind).getD 0
  BitVec.ofNat 64 (th.mode.code.toNat + s.tilesHeld t th * 256 + (if kind = 0 then 0 else 65536) + kind * 131072
    + (if th.wake then 2097152 else 0))

/-- The words of a record before its CHECK word: 604 words, 4,832 bytes (R99). -/
def recordBody (s : State) (t : Nat) (th : Thread) : List Word :=
  let w := widthsOf s th
  (0 :: th.x.toList.drop 1)
    ++ (th.v.toList.map (fun v => (List.range 32).map (fun i => v.extractLsb' (64 * i) 64))).flatten
    ++ ((th.m.toList.drop 1).map (fun m => (List.range 4).map (fun i => m.extractLsb' (64 * i) 64))).flatten
    ++ [if th.delivered then th.pc - 4 else th.pc, stateWord s t th]
    ++ [th.fflags.zeroExtend 64, th.frm.zeroExtend 64, th.ftrap.zeroExtend 64, th.flagorg, th.mult.zeroExtend 64,
        th.live.zeroExtend 64, th.wid]
    ++ (List.range 6).map (fun i => wfOf w th.wid (i + 1))
    ++ [lctxCsr s th, th.cell, th.widself, th.privbase, if th.delivered then th.instret - 1 else th.instret, th.utvec, th.uepc, th.ucause, th.uval, th.uskip,
        th.mxcfg, th.mxcnt, th.epc, th.cause, th.eval, th.eskip, th.emode.code]

/-- The XOR of a record's words taken as 32-bit words (R99). -/
def recordXor (l : List Word) : BitVec 32 :=
  l.foldl (fun acc w => acc ^^^ w.extractLsb' 0 32 ^^^ w.extractLsb' 32 32) 0

/-- The CHECK word: the handle of the saving slot in [16:0] and the XOR in [63:32] (R99). -/
def checkWord (body : List Word) (handle : Nat) : Word :=
  recordXor body ++ (0 : BitVec 15) ++ BitVec.ofNat 17 handle

/-- The 608 words of a record. -/
def recordWords (s : State) (t : Nat) (th : Thread) (handle : Nat) : List Word :=
  let body := recordBody s t th
  body ++ [checkWord body handle, 0, 0, 0]

/-- The physical address of a record of the spill area. -/
def spillAddr (s : State) (core idx : Nat) : Nat := (s.core core).ctxspill.toNat + 4864 * idx

/-- The record of a spilled thread is written again after its wait ended, with wake pending (R99, R145). -/
def rewriteSpilled (s : State) (t : Nat) : State :=
  match s.thread t with
  | some th =>
    match th.place with
    | .spilled h i => writeLater s (spillAddr s (coreOfHandle h) i) (recordWords s t th h)
    | _ => s
  | none => s

/-- Delivers the end of a parked or waiting thread's wait: `f` writes the result. A saved thread has wake pending, in its record too
where it is spilled (R99, R145); `again` says that its instruction has not retired. -/
def State.wakeWith (s : State) (t : Nat) (again : Bool) (f : Thread → Thread) : State :=
  match s.thread t with
  | some th =>
    let th' := f th
    rewriteSpilled (s.putThread t { th' with wait := none, wake := !th.isBound, kind := (th.wait.map Wait.parkKind).getD 0,
                                             again := again && !th.isBound }) t
  | none => s

/-- The waiting instruction of a thread ends in a trap, which it takes at its next boundary (R327, R137). -/
def State.wakeTrap (s : State) (t : Nat) (tr : Trap) : State :=
  s.wakeWith t true (fun th => { th with pending := th.pending ++ [tr] })

/-- A waiter whose thread is the evaluator of a cell has that cell's waits-on cleared (R325, R327). -/
def State.clearWaitsOn (s : State) (t : Nat) : State :=
  match (s.thread t).bind (·.evalOf) with
  | some e => { s with evals := match s.evals.find e with
      | some ev => s.evals.put e { ev with waitsOn := none }
      | none => s.evals }
  | none => s

/-- The cell's address as a waiting thread names it (R319). -/
def Thread.cellPtr (th : Thread) : Word :=
  match th.wait with
  | some (.cell _ p _) => p &&& ~~~ 7
  | _ => 0

/-- A CFAIL accepted at a cell (R327, R333): its word, its tag and the failure of its waiters in list order. -/
def State.failCell (s : State) (pa : Nat) (code : Word) : State :=
  let s1 := (s.storePa none pa 8 code.toNat).setTag pa 3
  match s.evals.find pa with
  | some ev =>
    let s2 := { s1 with evals := s1.evals.drop pa,
                        threads := s1.threads.map (fun p =>
                          if p.2.evalOf == some pa then (p.1, { p.2 with evalOf := none }) else p) }
    ev.waiters.foldl (fun st t =>
      match st.thread t with
      | some th => (st.clearWaitsOn t).wakeTrap t { cause := .suspensionFailed, val := th.cellPtr }
      | none => st) s2
  | none => s1

/-! ### Tiles and the end of a thread -/

/-- Releases every accumulator tile that a thread holds on a core (R228). Contents stay. -/
def Core.releaseTiles (c : Core) (t : Nat) : Core :=
  { c with tiles := Vector.ofFn (fun i : Fin 8 =>
    let x := c.tiles[i]
    if x.holder == some t then { x with holder := none } else x) }

/-- A freed tile goes to the MACQ that has waited longest (R229): the thread resumes holding it, with its format set and
its elements +0. -/
def State.grantTiles (s : State) (core : Nat) : State :=
  (List.range 8).foldl (fun (st : State) (a : Nat) =>
    let c := st.core core
    match c.tiles[a]? with
    | some tile =>
      if tile.holder.isSome then st else
      let waiting := st.threads.filterMap (fun p =>
        match p.2.wait with
        | some (.macq acc int since) => if p.2.core == core && acc.toNat == a && p.2.isBound then some (p.1, int, since) else none
        | _ => none)
      match waiting.foldl (fun (best : Option (Nat × Bool × Nat)) x =>
          match best with
          | some b => if b.2.2 ≤ x.2.2 then some b else some x
          | none => some x) none with
      | some (t, int, _) =>
        let c' := { c with tiles := c.tiles.setIfInBounds a { holder := some t, int := int, elems := 0, clamp := 0 } }
        match st.thread t with
        | some th => (st.putCore core c').putThread t (th.retire st.cycle)
        | none => st
      | none => st
    | none => st) s

/-- A thread ends while it is the evaluator of a cell: an implicit CFAIL (R328), logged. It waits for a copy engine that owns the cell's
line (R23). -/
def State.implicitCfail (s : State) (th : Thread) (code : Word) : State :=
  match th.evalOf with
  | some pa =>
    let l := Late.cfail pa code
    (if l.waits s then { s with late := s.late ++ [l] } else s.failCell pa code).logEvent .implicitCfail th.place.handle
      (BitVec.ofNat 64 pa) th.cell
  | none => s

/-- The engines' writes that no longer wait are made, oldest first; a log's record is judged in its bank's new mode, and dropped where that
is not SCRATCH (R15, R23). -/
def flushLate (s : State) : State :=
  s.late.foldl (fun st l =>
    if l.waits st then { st with late := st.late ++ [l] } else
    match l with
    | .words pa ws => storeWordsPa st pa ws
    | .log key ws => if (st.bank (key / 2 ^ 17)).mode = .scratch then logLater.storeLog st key ws else st
    | .cfail pa code => st.failCell pa code) { s with late := [] }

/-- The index of the thunk of a loader that R145 keeps bound which no slot has been reserved for since: the one that waited longest. -/
def waitingFirst (c : Core) : Option Nat :=
  (((List.range c.deque.length).zip c.deque).filter (fun p => match p.2.kind with
    | .thunk _ _ _ k => k == .first
    | _ => false)).getLast?.map (·.1)

/-- A slot becomes EMPTY: a thunk whose loader stayed bound takes the next such slot of the core, the thunk that has waited longest first,
unless the slot is reserved for another (R20, R145, R283; log 54). -/
def State.freeSlot (s : State) (handle : Nat) : State :=
  let c := s.core (coreOfHandle handle)
  let k := slotOfHandle handle
  let reserved := c.deque.any (fun e => match e.kind with
    | .thunk _ _ _ (.slot j) => j == k
    | _ => false)
  match (waitingFirst c).bind (fun i => c.deque[i]?.map (fun e => (i, e))) with
  | some (i, e) =>
    match e.kind with
    | .thunk pa ptr serial _ =>
      if reserved then s
      else s.putCore (coreOfHandle handle) { c with deque := c.deque.set i { e with kind := .thunk pa ptr serial (.slot k) } }
    | _ => s
  | none => s

/-- The channel ends that a thread holds unbind (R270). -/
def State.unbindEnds (s : State) (t core : Nat) : State :=
  let cl := clusterOfCore core
  let c := s.cluster cl
  s.putCluster cl { c with banks := c.banks.map (fun p =>
    match p.2.mode with
    | .fifo ch => (p.1, { p.2 with mode := .fifo { ch with
        writer := if ch.writer == .thread t then .unbound else ch.writer,
        reader := if ch.reader == some t then none else ch.reader,
        wheld := if ch.writer == .thread t then none else ch.wheld,
        rheld := if ch.reader == some t then none else ch.rheld } })
    | _ => p) }

/-- A thread leaves the machine: its tiles are released, its slot is EMPTY, its channel ends
unbind, its evaluation fails with `code` (R132, R270, R328, R382). No completion-tree node is decremented. -/
def State.removeThread (s : State) (t : Nat) (code : Word := 0xFFFFFFFFFFFFFFFF) : State :=
  match s.thread t with
  | some th =>
    let s1 := s.implicitCfail th code
    let s2 := s1.putCore th.core ((s1.core th.core).releaseTiles t)
    let s3 := ((s2.dropThread t).unbindEnds t th.core).grantTiles th.core
    if th.isBound then s3.freeSlot th.place.handle else s3
  | none => s

/-- MACHINE_CHECK is delivered to Helben, which logs it, and ends the thread as for HALT (R136, R138). -/
def State.machineCheck (s : State) (t : Nat) (reason : Word) (code : Word := 0xFFFFFFFFFFFFFFFF) : State :=
  match s.thread t with
  | some th => (s.removeThread t code).logEvent .machineCheck th.place.handle reason 0
  | none => s

/-! ### Taking a trap, and returning from one -/

/-- TakeTrap (R134): the trap of the thread's instruction at `pc`. A fetch trap of the first instruction at TVEC ends the
thread (R136); the reason that Helben logs is the trap's EVAL (log 67). MACHINE_CHECK and CONTEXT_SWAP_ERROR never reach a handler
(R138). -/
def State.takeTrapAt (s : State) (t : Nat) (pc : Word) (tr : Trap) (skip : Nat) : State :=
  match s.thread t with
  | some th =>
    if (th.entered == .supervisor && tr.cause.ofFetch) || tr.cause == .machineCheck then s.machineCheck t tr.val
    else if tr.cause == .contextSwapError then (s.removeThread t).logEvent .contextSwapError th.place.handle tr.val 0
    else
      s.putThread t (th.enterTrap (s.csrsOf th) s.cycle pc tr (BitVec.ofNat 64 skip))
  | none => s

/-- The trap of an instruction that stands at the thread's PC, with ESKIP 0 (R139). -/
def State.takeTrap (s : State) (t : Nat) (tr : Trap) : State :=
  match s.thread t with
  | some th => s.takeTrapAt t th.pc tr 0
  | none => s

/-- The trap of the outstanding head, at its own PC (R57). -/
def State.trapHead (s : State) (t : Nat) (tr : Trap) (skip : Nat) : State :=
  match s.thread t with
  | some th =>
    match th.head with
    | some h => s.takeTrapAt t h.pc tr skip
    | none => s
  | none => s

/-- TRET (R127): the thread after a return, or the trap of a misaligned target. A TRET that is itself re-executed with a skip returns without
one (log 68). -/
def Thread.returnFromTrap (th : Thread) (cycle : Nat) : Except Trap Thread :=
  let pc := if th.mode = .supervisor then th.epc else th.uepc
  let k := if th.mode = .supervisor then th.eskip else th.uskip
  let mode := if th.mode = .supervisor then th.emode else .user
  if pc.toNat % 4 ≠ 0 then .error { cause := .misalignedFetch, val := pc }
  else
    let r := th.retireTo cycle pc
    .ok { r with mode := mode, trapUntil := some (cycle + 16),
                 redo := if k = 0 ∨ th.redo.isSome then none else some (pc + 4 * (k + 1)) }

/-! ### The shapes of a meaning -/

/-- The meaning of an instruction that acts on its thread alone: it retires, or its trap is taken. A shadow's trap waits
for the head (R57). -/
def runThread (s : State) (k : Thread → Except Trap Thread) : Outcome :=
  match s.current with
  | none => .fault .noThread
  | some th =>
    match k th with
    | .ok th' => .next (s.putThread s.cur ((th'.retire s.cycle).countShadow))
    | .error tr => if th.head.isSome then .next s else .next (s.takeTrap s.cur tr)

/-- The meaning of a jump: as `runThread`, with the target it goes on at. No jump is a shadow (R53). -/
def runJump (s : State) (k : Thread → Except Trap (Thread × Word)) : Outcome :=
  match s.current with
  | none => .fault .noThread
  | some th =>
    match k th with
    | .ok (th', target) => .next (s.putThread s.cur ((th'.retireTo s.cycle target).endWindow))
    | .error tr => .next (s.takeTrap s.cur tr)

/-- The meaning of an instruction that acts on the package: `k` gives the state after its whole effect, its thread's
retirement included, or its trap. -/
def runState (s : State) (k : Thread → Except Trap State) : Outcome :=
  match s.current with
  | none => .fault .noThread
  | some th =>
    match k th with
    | .ok s' => .next s'
    | .error tr => .next (s.takeTrap s.cur tr)

/-- The current thread retires with a register result, its window ended. -/
def State.retireX (s : State) (d : Reg) (v : Word) : State :=
  match s.thread s.cur with
  | some th => s.putThread s.cur (((th.setX d v).retire s.cycle).endWindow)
  | none => s

/-- The current thread retires with no register result. -/
def State.retireCur (s : State) : State :=
  match s.thread s.cur with
  | some th => s.putThread s.cur ((th.retire s.cycle).endWindow)
  | none => s

/-- The current thread waits. -/
def State.waitCur (s : State) (w : Wait) : State :=
  match s.thread s.cur with
  | some th => s.putThread s.cur { th with wait := some w, entered := .no }.endWindow
  | none => s

end Sys2Proof.Machine
end

