-- ==== Sys2Proof/Machine/Operands.lean ====
section
/-!
DEFINITION. The operand forms: immediates and offsets (R47), effective pointers (R115, R120), bit-field operands (R109),
vector elements and masks (R61, R203), and the widening of loaded values (R101).
-/
namespace Sys2Proof.Machine

/-- imm15 and imm20, sign-extended (R107, R110). -/
def immI (imm : BitVec 15) : Word := imm.signExtend 64
/-- LIH and ADDPC: the immediate times 4,096 (R110). -/
def immU (imm : BitVec 20) : Word := imm.signExtend 64 * 4096
/-- The target of a BCC: its own address plus the offset in words (R111). -/
def branchTarget (pc : Word) (off : BitVec 12) : Word := pc + 4 * off.signExtend 64
/-- The target of a CALL (R112). -/
def callTarget (pc : Word) (off : BitVec 20) : Word := pc + 4 * off.signExtend 64
/-- The effective pointer of a plain access: X[a] + SignExtend(off11) × size (R115). -/
def effectivePtr (th : Thread) (a : Reg) (off : BitVec 11) (size : Nat) : Word :=
  th.getX a + off.signExtend 64 * BitVec.ofNat 64 size
/-- The pointer of a W-format access: X[a] + SignExtend(off8) × 256 (R46, R219). -/
def effectivePtrW (th : Thread) (a : Reg) (off : BitVec 8) : Word := th.getX a + off.signExtend 64 * 256

/-- The low 32 bits of a word, sign-extended (R101). -/
def sext32 (v : Word) : Word := (v.truncate 32).signExtend 64

/-- The low n bytes of a number, sign-extended or zero-extended to 64 bits (R114). -/
def extend (size : Nat) (signed : Bool) (v : Nat) : Word :=
  match size, signed with
  | 1, true => (BitVec.ofNat 8 v).signExtend 64
  | 1, false => (BitVec.ofNat 8 v).zeroExtend 64
  | 2, true => (BitVec.ofNat 16 v).signExtend 64
  | 2, false => (BitVec.ofNat 16 v).zeroExtend 64
  | 4, true => (BitVec.ofNat 32 v).signExtend 64
  | 4, false => (BitVec.ofNat 32 v).zeroExtend 64
  | _, _ => BitVec.ofNat 64 v

/-- The mask of a bit field of width w (R109). -/
def fieldMask (w : Nat) : Word := if w = 64 then BitVec.allOnes 64 else (1 <<< w) - 1

/-- Element i of a vector register whose elements are n bits wide, as a number (R203). -/
def elemOf (v : VWord) (n i : Nat) : Nat := v.toNat / 2 ^ (n * i) % 2 ^ n

/-- A vector of elements of n bits from a list, element 0 first. -/
def packElems (n : Nat) (l : List Nat) : Nat := l.foldr (fun e acc => e % 2 ^ n + 2 ^ n * acc) 0

/-- A vector register from a list of n-bit elements. -/
def vOfElems (n : Nat) (l : List Nat) : VWord := BitVec.ofNat 2048 (packElems n l)

/-- The elements of a vector register, n bits each. -/
def elemsOf (v : VWord) (n : Nat) : List Nat := (List.range (2048 / n)).map (fun i => elemOf v n i)

/-- A mask register from a list of bits, bit 0 first. -/
def mOfBits (l : List Bool) : MWord := BitVec.ofNat 256 (packElems 1 (l.map (fun b => if b then 1 else 0)))

end Sys2Proof.Machine
end

