-- ==== Sys2Proof/Machine/Alu.lean ====
section
/-!
DEFINITION. Integer instructions that act on registers alone: ALU, MULDIV, BITS, the immediate forms, SHIFTI, BFX, BFI, LIH
and ADDPC (R103 to R110).
-/
namespace Sys2Proof.Machine

/-- 1 or 0 (R103). -/
def bit (b : Bool) : Word := if b then 1 else 0
/-- A shift or rotate amount: B[5:0] (R103). -/
def shiftAmount (B : Word) : Nat := B.toNat % 64
/-- Shift left, zeros shifted in (R103). -/
def shl (A : Word) (k : Nat) : Word := A <<< k
/-- Shift right, zeros shifted in (R103). -/
def shr (A : Word) (k : Nat) : Word := A >>> k
/-- Shift right, copies of A[63] shifted in (R103). -/
def sar (A : Word) (k : Nat) : Word := A.sshiftRight k
/-- Rotate left (R103). -/
def rotl (A : Word) (k : Nat) : Word := (A <<< k) ||| (A >>> (64 - k))
/-- Rotate right (R103). -/
def rotr (A : Word) (k : Nat) : Word := (A >>> k) ||| (A <<< (64 - k))

/-- How many of the top n bits are zero above the highest one bit (R106). -/
def leadingZeros : Nat → Word → Nat
  | 0, _ => 0
  | n + 1, A => if A.getLsbD n then 0 else 1 + leadingZeros n A
/-- How many of the n bits from bit 64 − n up are zero below the lowest one bit (R106). -/
def trailingZeros : Nat → Word → Nat
  | 0, _ => 0
  | n + 1, A => if A.getLsbD (63 - n) then 0 else 1 + trailingZeros n A
/-- How many of the low n bits are one (R106). -/
def countOnes : Nat → Word → Nat
  | 0, _ => 0
  | n + 1, A => (if A.getLsbD n then 1 else 0) + countOnes n A
/-- Byte i moved to byte 7 − i (R106). -/
def byteSwap (A : Word) : Word :=
  (List.range 8).foldl (fun (acc : Word) i => acc ||| ((A.extractLsb' (8 * i) 8).zeroExtend 64 <<< (8 * (7 - i)))) 0

/-- The quotient of R105; the overflow case gives A. -/
def divQ (signed : Bool) (A B : Word) : Word :=
  if B = 0 then BitVec.allOnes 64
  else if signed then BitVec.ofInt 64 (A.toInt.tdiv B.toInt) else BitVec.ofNat 64 (A.toNat / B.toNat)
/-- The remainder of R105: it has the sign of the dividend. -/
def divR (signed : Bool) (A B : Word) : Word :=
  if B = 0 then A
  else if signed then BitVec.ofInt 64 (A.toInt.tmod B.toInt) else BitVec.ofNat 64 (A.toNat % B.toNat)

/-- A divide issues as a head with its result and the cycle in which it completes (R102), or traps DIV_ZERO when FTRAP[1]
enables it (R105). `k` gives whether the divisor is zero, the value of X[d], and the latency. -/
def runDivide (s : State) (d : Reg) (la : BitVec 4) (k : Thread → Bool × Word × Nat) : Outcome :=
  runState s (fun th =>
    let r := k th
    if r.1 && th.ftrap.getLsbD 1 then .error { cause := .divZero, val := 0 }
    else .ok (s.putThread s.cur (th.issueHead s.cycle (.div d r.2.1 (s.cycle + r.2.2)) (.x d) la.toNat)))

/-- ADD (R103). -/
def execAdd (d a b : BitVec 5) (s : State) : Outcome :=
  runThread s (fun th => let A := th.getX a; let B := th.getX b; .ok (th.setX d (A + B)))

/-- SUB (R103). -/
def execSub (d a b : BitVec 5) (s : State) : Outcome :=
  runThread s (fun th => let A := th.getX a; let B := th.getX b; .ok (th.setX d (A - B)))

/-- AND (R103). -/
def execAnd (d a b : BitVec 5) (s : State) : Outcome :=
  runThread s (fun th => let A := th.getX a; let B := th.getX b; .ok (th.setX d (A &&& B)))

/-- OR (R103). -/
def execOr (d a b : BitVec 5) (s : State) : Outcome :=
  runThread s (fun th => let A := th.getX a; let B := th.getX b; .ok (th.setX d (A ||| B)))

/-- XOR (R103). -/
def execXor (d a b : BitVec 5) (s : State) : Outcome :=
  runThread s (fun th => let A := th.getX a; let B := th.getX b; .ok (th.setX d (A ^^^ B)))

/-- ANDN (R103). -/
def execAndn (d a b : BitVec 5) (s : State) : Outcome :=
  runThread s (fun th => let A := th.getX a; let B := th.getX b; .ok (th.setX d (A &&& ~~~B)))

/-- ORN (R103). -/
def execOrn (d a b : BitVec 5) (s : State) : Outcome :=
  runThread s (fun th => let A := th.getX a; let B := th.getX b; .ok (th.setX d (A ||| ~~~B)))

/-- XNOR (R103). -/
def execXnor (d a b : BitVec 5) (s : State) : Outcome :=
  runThread s (fun th => let A := th.getX a; let B := th.getX b; .ok (th.setX d (~~~(A ^^^ B))))

/-- SLL by B[5:0] (R103). -/
def execSll (d a b : BitVec 5) (s : State) : Outcome :=
  runThread s (fun th => let A := th.getX a; let B := th.getX b; .ok (th.setX d (shl A (shiftAmount B))))

/-- SRL by B[5:0] (R103). -/
def execSrl (d a b : BitVec 5) (s : State) : Outcome :=
  runThread s (fun th => let A := th.getX a; let B := th.getX b; .ok (th.setX d (shr A (shiftAmount B))))

/-- SRA by B[5:0] (R103). -/
def execSra (d a b : BitVec 5) (s : State) : Outcome :=
  runThread s (fun th => let A := th.getX a; let B := th.getX b; .ok (th.setX d (sar A (shiftAmount B))))

/-- ROL by B[5:0] (R103). -/
def execRol (d a b : BitVec 5) (s : State) : Outcome :=
  runThread s (fun th => let A := th.getX a; let B := th.getX b; .ok (th.setX d (rotl A (shiftAmount B))))

/-- ROR by B[5:0] (R103). -/
def execRor (d a b : BitVec 5) (s : State) : Outcome :=
  runThread s (fun th => let A := th.getX a; let B := th.getX b; .ok (th.setX d (rotr A (shiftAmount B))))

/-- MIN, signed (R103). -/
def execMin (d a b : BitVec 5) (s : State) : Outcome :=
  runThread s (fun th => let A := th.getX a; let B := th.getX b; .ok (th.setX d (if A.toInt < B.toInt then A else B)))

/-- MAX, signed (R103). -/
def execMax (d a b : BitVec 5) (s : State) : Outcome :=
  runThread s (fun th => let A := th.getX a; let B := th.getX b; .ok (th.setX d (if B.toInt < A.toInt then A else B)))

/-- MINN, unsigned (R103). -/
def execMinn (d a b : BitVec 5) (s : State) : Outcome :=
  runThread s (fun th => let A := th.getX a; let B := th.getX b; .ok (th.setX d (if A.toNat < B.toNat then A else B)))

/-- MAXN, unsigned (R103). -/
def execMaxn (d a b : BitVec 5) (s : State) : Outcome :=
  runThread s (fun th => let A := th.getX a; let B := th.getX b; .ok (th.setX d (if B.toNat < A.toNat then A else B)))

/-- SLT (R103). -/
def execSlt (d a b : BitVec 5) (s : State) : Outcome :=
  runThread s (fun th => let A := th.getX a; let B := th.getX b; .ok (th.setX d (bit (decide (A.toInt < B.toInt)))))

/-- SLTN (R103). -/
def execSltn (d a b : BitVec 5) (s : State) : Outcome :=
  runThread s (fun th => let A := th.getX a; let B := th.getX b; .ok (th.setX d (bit (decide (A.toNat < B.toNat)))))

/-- SEQ (R103). -/
def execSeq (d a b : BitVec 5) (s : State) : Outcome :=
  runThread s (fun th => let A := th.getX a; let B := th.getX b; .ok (th.setX d (bit (decide (A = B)))))

/-- SNE (R103). -/
def execSne (d a b : BitVec 5) (s : State) : Outcome :=
  runThread s (fun th => let A := th.getX a; let B := th.getX b; .ok (th.setX d (bit (decide (A ≠ B)))))

/-- ADDW (R103). -/
def execAddw (d a b : BitVec 5) (s : State) : Outcome :=
  runThread s (fun th => let A := th.getX a; let B := th.getX b; .ok (th.setX d (sext32 (A + B))))

/-- SUBW (R103). -/
def execSubw (d a b : BitVec 5) (s : State) : Outcome :=
  runThread s (fun th => let A := th.getX a; let B := th.getX b; .ok (th.setX d (sext32 (A - B))))

/-- SLLW by B[4:0] (R103). -/
def execSllw (d a b : BitVec 5) (s : State) : Outcome :=
  runThread s (fun th => let A := th.getX a; let B := th.getX b; .ok (th.setX d (((A.truncate 32) <<< (B.toNat % 32)).signExtend 64)))

/-- SRLW by B[4:0] (R103). -/
def execSrlw (d a b : BitVec 5) (s : State) : Outcome :=
  runThread s (fun th => let A := th.getX a; let B := th.getX b; .ok (th.setX d (((A.truncate 32) >>> (B.toNat % 32)).signExtend 64)))

/-- SRAW by B[4:0] (R103). -/
def execSraw (d a b : BitVec 5) (s : State) : Outcome :=
  runThread s (fun th => let A := th.getX a; let B := th.getX b; .ok (th.setX d (((A.truncate 32).sshiftRight (B.toNat % 32)).signExtend 64)))

/-- MUL (R104). -/
def execMul (d a b : BitVec 5) (s : State) : Outcome :=
  runThread s (fun th => let A := th.getX a; let B := th.getX b; .ok (th.setX d (A * B)))

/-- MULH, the high half of the signed product (R104). -/
def execMulh (d a b : BitVec 5) (s : State) : Outcome :=
  runThread s (fun th => let A := th.getX a; let B := th.getX b; .ok (th.setX d (BitVec.ofInt 64 (A.toInt * B.toInt / 2 ^ 64))))

/-- MULHN, the high half of the unsigned product (R104). -/
def execMulhn (d a b : BitVec 5) (s : State) : Outcome :=
  runThread s (fun th => let A := th.getX a; let B := th.getX b; .ok (th.setX d (BitVec.ofNat 64 (A.toNat * B.toNat / 2 ^ 64))))

/-- MULW (R104). -/
def execMulw (d a b : BitVec 5) (s : State) : Outcome :=
  runThread s (fun th => let A := th.getX a; let B := th.getX b; .ok (th.setX d (sext32 (A * B))))

/-- DIV, 64-bit (R105). -/
def execDiv (d a b : BitVec 5) (la : BitVec 4) (s : State) : Outcome :=
  runDivide s d la (fun th => let A := th.getX a; let B := th.getX b; (B == 0, divQ true A B, 40))

/-- DIVN, 64-bit (R105). -/
def execDivn (d a b : BitVec 5) (la : BitVec 4) (s : State) : Outcome :=
  runDivide s d la (fun th => let A := th.getX a; let B := th.getX b; (B == 0, divQ false A B, 40))

/-- REM, 64-bit (R105). -/
def execRem (d a b : BitVec 5) (la : BitVec 4) (s : State) : Outcome :=
  runDivide s d la (fun th => let A := th.getX a; let B := th.getX b; (B == 0, divR true A B, 40))

/-- REMN, 64-bit (R105). -/
def execRemn (d a b : BitVec 5) (la : BitVec 4) (s : State) : Outcome :=
  runDivide s d la (fun th => let A := th.getX a; let B := th.getX b; (B == 0, divR false A B, 40))

/-- DIVW, 32-bit (R105). -/
def execDivw (d a b : BitVec 5) (la : BitVec 4) (s : State) : Outcome :=
  runDivide s d la (fun th => let A := sext32 (th.getX a); let B := sext32 (th.getX b); (B == 0, sext32 (divQ true A B), 24))

/-- REMW, 32-bit (R105). -/
def execRemw (d a b : BitVec 5) (la : BitVec 4) (s : State) : Outcome :=
  runDivide s d la (fun th => let A := sext32 (th.getX a); let B := sext32 (th.getX b); (B == 0, sext32 (divR true A B), 24))

/-- CLZ (R106). -/
def execClz (d a : BitVec 5) (s : State) : Outcome :=
  runThread s (fun th => .ok (th.setX d (BitVec.ofNat 64 (leadingZeros 64 (th.getX a)))))

/-- CTZ (R106). -/
def execCtz (d a : BitVec 5) (s : State) : Outcome :=
  runThread s (fun th => .ok (th.setX d (BitVec.ofNat 64 (trailingZeros 64 (th.getX a)))))

/-- POPC (R106). -/
def execPopc (d a : BitVec 5) (s : State) : Outcome :=
  runThread s (fun th => .ok (th.setX d (BitVec.ofNat 64 (countOnes 64 (th.getX a)))))

/-- BREV (R106). -/
def execBrev (d a : BitVec 5) (s : State) : Outcome :=
  runThread s (fun th => .ok (th.setX d ((th.getX a).reverse)))

/-- BSWAP (R106). -/
def execBswap (d a : BitVec 5) (s : State) : Outcome :=
  runThread s (fun th => .ok (th.setX d (byteSwap (th.getX a))))

/-- ADDI (R107). -/
def execAddi (d a : BitVec 5) (imm : BitVec 15) (s : State) : Outcome :=
  runThread s (fun th => let A := th.getX a; let I := immI imm; .ok (th.setX d (A + I)))

/-- ANDI (R107). -/
def execAndi (d a : BitVec 5) (imm : BitVec 15) (s : State) : Outcome :=
  runThread s (fun th => let A := th.getX a; let I := immI imm; .ok (th.setX d (A &&& I)))

/-- ORI (R107). -/
def execOri (d a : BitVec 5) (imm : BitVec 15) (s : State) : Outcome :=
  runThread s (fun th => let A := th.getX a; let I := immI imm; .ok (th.setX d (A ||| I)))

/-- XORI (R107). -/
def execXori (d a : BitVec 5) (imm : BitVec 15) (s : State) : Outcome :=
  runThread s (fun th => let A := th.getX a; let I := immI imm; .ok (th.setX d (A ^^^ I)))

/-- SLTI (R107). -/
def execSlti (d a : BitVec 5) (imm : BitVec 15) (s : State) : Outcome :=
  runThread s (fun th => let A := th.getX a; let I := immI imm; .ok (th.setX d (bit (decide (A.toInt < I.toInt)))))

/-- SLTNI (R107). -/
def execSltni (d a : BitVec 5) (imm : BitVec 15) (s : State) : Outcome :=
  runThread s (fun th => let A := th.getX a; let I := immI imm; .ok (th.setX d (bit (decide (A.toNat < I.toNat)))))

/-- SLLI (R108). -/
def execSlli (d a : BitVec 5) (k : BitVec 6) (s : State) : Outcome :=
  runThread s (fun th => .ok (th.setX d (shl (th.getX a) k.toNat)))

/-- SRLI (R108). -/
def execSrli (d a : BitVec 5) (k : BitVec 6) (s : State) : Outcome :=
  runThread s (fun th => .ok (th.setX d (shr (th.getX a) k.toNat)))

/-- SRAI (R108). -/
def execSrai (d a : BitVec 5) (k : BitVec 6) (s : State) : Outcome :=
  runThread s (fun th => .ok (th.setX d (sar (th.getX a) k.toNat)))

/-- ROLI (R108). -/
def execRoli (d a : BitVec 5) (k : BitVec 6) (s : State) : Outcome :=
  runThread s (fun th => .ok (th.setX d (rotl (th.getX a) k.toNat)))

/-- RORI (R108). -/
def execRori (d a : BitVec 5) (k : BitVec 6) (s : State) : Outcome :=
  runThread s (fun th => .ok (th.setX d (rotr (th.getX a) k.toNat)))

/-- BFX: p + w above 64 traps RESERVED_FIELD (R109). -/
def execBfx (d a : BitVec 5) (p w : BitVec 6) (s : State) : Outcome :=
  runThread s (fun th =>
    if 64 < p.toNat + (w.toNat + 1) then .error { cause := .reservedField, val := th.pc }
    else .ok (th.setX d ((th.getX a >>> p.toNat) &&& fieldMask (w.toNat + 1))))

/-- BFI: reads xd as a source (R109). -/
def execBfi (d a : BitVec 5) (p w : BitVec 6) (s : State) : Outcome :=
  runThread s (fun th =>
    if 64 < p.toNat + (w.toNat + 1) then .error { cause := .reservedField, val := th.pc }
    else
      let mask := fieldMask (w.toNat + 1)
      .ok (th.setX d ((th.getX d &&& ~~~(mask <<< p.toNat)) ||| ((th.getX a &&& mask) <<< p.toNat))))

/-- LIH (R110). -/
def execLih (d : BitVec 5) (imm : BitVec 20) (s : State) : Outcome :=
  runThread s (fun th => .ok (th.setX d (immU imm)))

/-- ADDPC (R110). -/
def execAddpc (d : BitVec 5) (imm : BitVec 20) (s : State) : Outcome :=
  runThread s (fun th => .ok (th.setX d (th.pc + immU imm)))

end Sys2Proof.Machine
end

