-- ==== Sys2Proof/Config.lean ====
section
/-!
DEFINITION. What the spec leaves open and the model does not choose. No constant here has a body: nothing in
Lean can evaluate it or prove a value of it, so a claim about a run that uses one holds whatever it is.
-/
namespace Sys2Proof.Config

/-- The n-th value that comes from outside the machine: what a REMOTE load or a returning REMOTE atomic reads
from another package's memory, which is no part of this machine (R372). Log entry 6. -/
opaque freeValue : Nat → Word

/-- What another package's translation and checks say of a REMOTE access at a pointer that issues in a cycle (R372): the place, in the model's
list of causes, of the one for which it is refused, and any other number where it is admitted. Log entry 6. -/
opaque remoteStatus : Nat → Word → Nat

/-- Whether a REMOTE pointer lies on a page of another package with D set (R309, R372). The first argument is the cycle. Log entry 6. -/
opaque remoteDpage : Nat → Word → Bool

/-- Whether another package's data at an address is uncorrectable in a cycle, or its tag unreadable (R317, R372): the arguments are the cycle,
the package and the address. Log entry 6. -/
opaque remoteBad : Nat → Nat → Nat → Bool

/-- Whether another package's response to the REMOTE access of a thread, by its number, arrives in a cycle (R369, R372). Log entry 6. -/
opaque remoteArrives : Nat → Nat → Bool

end Sys2Proof.Config
end

