-- ==== Sys2Proof/Machine/Access.lean ====
section
/-!
DEFINITION. Pointer spaces (R11, R12), translation (R151 to R155), the home slices and their request ports (R300, R302), the checks of an
access in their order (R116), bank modes (R14) and bank ports (R92), and the bytes an access reads or writes.
-/
namespace Sys2Proof.Machine

/-- A check answers a value, a trap, or `none`: the access waits and its instruction issues again (R15, R23, R92). -/
abbrev Check (α : Type) := Except (Option Trap) α

/-- The trap of a check. -/
def trapOf {α : Type} (c : Cause) (v : Word) : Check α := .error (some { cause := c, val := v })
/-- The check waits. -/
def stall {α : Type} : Check α := .error none
/-- Requires a condition. -/
def require (b : Bool) (c : Cause) (v : Word) : Check Unit := if b then .ok () else trapOf c v
/-- A check that cannot wait. -/
def ofTrap {α : Type} : Except Trap α → Check α
  | .ok a => .ok a
  | .error t => .error (some t)

/-! ### Lines that a copy engine owns (R23) -/

/-- Whether some byte of n bytes at a location lies in a line that a copy engine owns (R23). -/
def lineHeld (s : State) (loc : Loc) (n : Nat) : Bool :=
  match loc with
  | .dram pa => ownedAt s true pa n
  | .bank key => ownedAt s false key n
  | _ => false

/-! ### Translation -/

/-- Who translates: the core whose TLBs are used (none for an engine, which walks), the mode and the context. The walk for an accepted
copy request waits for the lines of requests accepted before it, `copies` being its place in that order (R23, R41; log 23). -/
structure Cx where
  core     : Option Nat
  die      : Nat
  mode     : Mode
  asid     : BitVec 16
  ptbase   : Word
  privbase : Word
  copies   : Option Nat := none
  deriving DecidableEq, Repr

/-- The translation context of a thread's access. -/
def cxOf (s : State) (th : Thread) : Cx :=
  let k := s.csrsOf th
  { core := some th.core, die := dieOfCore th.core, mode := th.mode, asid := k.asid, ptbase := k.ptbase,
    privbase := th.privbase }

/-- How a walk ends (R151). -/
inductive Walked where
  | fault
  | corrupt
  | held
  | leaf (e : TlbEntry)
  deriving DecidableEq, Repr

/-- The fields of a page-table entry (R151). -/
def pteV (e : Word) : Bool := e.getLsbD 0
def pteR (e : Word) : Bool := e.getLsbD 1
def pteW (e : Word) : Bool := e.getLsbD 2
def pteX (e : Word) : Bool := e.getLsbD 3
def pteU (e : Word) : Bool := e.getLsbD 4
def pteG (e : Word) : Bool := e.getLsbD 5
def pteM (e : Word) : Bool := e.getLsbD 7
def pteD (e : Word) : Bool := e.getLsbD 8
def pteL (e : Word) : Bool := e.getLsbD 9
def pteK (e : Word) : Bool := e.getLsbD 10
def pteBase (e : Word) : Nat := (e.extractLsb' 16 32).toNat * 65536
def pteCount (e : Word) : Nat := (e.extractLsb' 48 8).toNat
def pteOwner (e : Word) : Nat := (e.extractLsb' 56 2).toNat

/-- A pointer entry: its bits [15:1] and [59:48] are zero (R151). -/
def ptePointerOk (e : Word) : Bool := e.extractLsb' 1 15 == 0 && e.extractLsb' 48 12 == 0

/-- A leaf's must-be-zero bits and its physical range (R151, R373); a K page is a 64 KiB page beneath die 2 or 3 (R342). -/
def pteLeafOk (large : Bool) (e : Word) : Bool :=
  e.extractLsb' 11 5 == 0 && e.extractLsb' 58 2 == 0 && (pteK e || e.extractLsb' 48 10 == 0)
    && (!large || e.extractLsb' 16 13 == 0) && !paReserved (pteBase e)
    && (!pteK e || (!large && decide (2 ≤ dieOfPa (pteBase e))))

/-- Whether a walk waits for the line of a page-table entry, because a copy engine owns it (R23). -/
def walkHeld (s : State) (copies : Option Nat) (a : Nat) : Bool :=
  match copies with
  | none => ownedAt s true a 8
  | some seq => s.clusters.any (fun c => c.2.jobs.any (fun j => decide (j.seq < seq) && j.owned.any (fun o => o.meets true a 8)))

/-- One level of the walk and those below it (R151): `levels` is 2 at level 1, 1 at level 2 and 0 at level 3. An entry in a line
that a copy engine owns is not read yet (R23); one outside DRAM or marked uncorrectable ends the walk in PAGE_TABLE_CORRUPT
(log 13). -/
def walkFrom (s : State) (copies : Option Nat) (asid : BitVec 16) (va : Nat) : Nat → Nat → Walked
  | levels, table =>
    let idx := match levels with
      | 0 => va / 2 ^ 16 % 8192
      | 1 => va / 2 ^ 29 % 8192
      | _ => va / 2 ^ 42 % 1024
    let a := table + idx * 8
    if dramEnd ≤ a || s.isBad a 8 then .corrupt else
    if walkHeld s copies a then .held else
    let e : Word := BitVec.ofNat 64 (s.mem.readLE a 8)
    if !pteV e then .fault
    else if !pteR e && !pteW e && !pteX e then
      if !ptePointerOk e then .corrupt else
      match levels with
      | 0 => .corrupt
      | n + 1 => walkFrom s copies asid va n (pteBase e)
    else
      match levels with
      | 0 => if pteLeafOk false e then
          .leaf { asid := asid, page := va / 2 ^ 16, large := false, pte := e, pteAddr := a } else .corrupt
      | 1 => if pteLeafOk true e then
          .leaf { asid := asid, page := va / 2 ^ 29, large := true, pte := e, pteAddr := a } else .corrupt
      | _ => .corrupt

/-- The walk of a virtual address from a root (R151). -/
def walk (s : State) (copies : Option Nat) (asid : BitVec 16) (ptbase : Word) (va : Nat) : Walked :=
  walkFrom s copies asid va 2 (pteBase ptbase)

/-- Whether a TLB entry maps an address of an address space (R153). -/
def TlbEntry.covers (e : TlbEntry) (asid : BitVec 16) (va : Nat) : Bool :=
  (pteG e.pte || e.asid == asid) && e.page == (if e.large then va / 2 ^ 29 else va / 2 ^ 16)

/-- The physical address that an entry gives an address. -/
def TlbEntry.pa (e : TlbEntry) (va : Nat) : Nat :=
  pteBase e.pte + (if e.large then va % 2 ^ 29 else va % 2 ^ 16)

/-- The set of a cluster TLB that holds a page (R153; log 9). -/
def tlbSet (page : Nat) : Nat := page % 256

/-- The entry of the core TLB, else of the cluster TLB, that maps an address (R153). -/
def tlbFind (s : State) (core : Nat) (asid : BitVec 16) (va : Nat) : Option TlbEntry :=
  let ways := fun (page : Nat) => ((s.cluster (clusterOfCore core)).tlb.find (tlbSet page)).getD []
  ((s.core core).tlb ++ ways (va / 2 ^ 16) ++ ways (va / 2 ^ 29)).find? (fun e => e.covers asid va)

/-- Whether a leaf admits an access (R152). -/
def admits (mode : Mode) (kind : AccessKind) (e : Word) : Bool :=
  (match kind with
    | .load => pteR e
    | .store => pteW e
    | .fetch => pteX e) && (mode == .supervisor || pteU e)

/-- The page-fault cause of a kind (R151). -/
def pageFaultOf : AccessKind → Cause
  | .load => .loadPageFault
  | .store => .storePageFault
  | .fetch => .fetchFault
/-- The protection cause of a kind; a fetch has one cause for both (R138). -/
def protectionOf : AccessKind → Cause
  | .load => .loadProtection
  | .store => .storeProtection
  | .fetch => .fetchFault
/-- The misalignment cause of a kind. -/
def misalignedOf : AccessKind → Cause
  | .load => .loadMisaligned
  | .store => .storeMisaligned
  | .fetch => .misalignedFetch

/-- A translated address: the entry used, and whether it comes from a new walk and fills the TLBs. -/
structure Hit where
  entry  : TlbEntry
  walked : Bool
  deriving DecidableEq, Repr

/-- A new walk and its permission check (R151, R152). -/
def walkHit (s : State) (cx : Cx) (kind : AccessKind) (va : Nat) (ptr : Word) : Check Hit :=
  match walk s cx.copies cx.asid cx.ptbase va with
  | .fault => trapOf (pageFaultOf kind) ptr
  | .corrupt => trapOf .pageTableCorrupt ptr
  | .held => stall
  | .leaf e => if admits cx.mode kind e.pte then .ok { entry := e, walked := true } else trapOf (protectionOf kind) ptr

/-- Orders 3 and 4 of R116 for a GLOBAL address. A refusal that a TLB entry gives is confirmed by a new walk (R155). A first store
through an entry waits for a copy engine that owns the line of its page-table entry, whose M it sets (R23, R154). -/
def translate (s : State) (cx : Cx) (kind : AccessKind) (va : Nat) (ptr : Word) : Check Hit :=
  match cx.core.bind (fun c => tlbFind s c cx.asid va) with
  | some e =>
    if !admits cx.mode kind e.pte then walkHit s cx kind va ptr
    else if kind == .store && !pteM e.pte && ownedAt s true e.pteAddr 8 then stall
    else .ok { entry := e, walked := false }
  | none => walkHit s cx kind va ptr

/-- Order 5 of R116: at most one of D, L and K. -/
def attrsOk (e : Word) : Bool :=
  !(pteD e && pteL e) && !(pteD e && pteK e) && !(pteL e && pteK e)

/-- Order 6 of R116: a store to a K page needs the issuing die as owner and a reference count of at most 1. -/
def kvStoreCause (die : Nat) (e : Word) : Option Cause :=
  if !pteK e then none
  else if pteOwner e != die then some .kvNotOwner
  else if 1 < pteCount e then some .kvSharedWrite
  else none

/-- Order 6 with the re-walk of R24: a refusal by a TLB entry is confirmed by a new walk. -/
def checkKv (s : State) (cx : Cx) (h : Hit) (va : Nat) (ptr : Word) : Check Hit :=
  match kvStoreCause cx.die h.entry.pte with
  | none => .ok h
  | some c =>
    if h.walked then trapOf c ptr else
    match walkHit s cx .store va ptr with
    | .error e => .error e
    | .ok h' =>
      match kvStoreCause cx.die h'.entry.pte with
      | none => .ok h'
      | some c' => trapOf c' ptr

/-- Puts an entry in the TLBs of a core and its cluster: the newest of 64, and the newest of the 8 ways of its set (R153; log 9). -/
def fillTlb (s : State) (core : Nat) (e : TlbEntry) : State :=
  let same := fun (x : TlbEntry) => x.asid == e.asid && x.page == e.page && x.large == e.large
  let c := s.core core
  let s1 := s.putCore core { c with tlb := (e :: c.tlb.filter (fun x => !same x)).take 64 }
  let k := s1.cluster (clusterOfCore core)
  let ways := (k.tlb.find (tlbSet e.page)).getD []
  s1.putCluster (clusterOfCore core) { k with tlb := k.tlb.put (tlbSet e.page) ((e :: ways.filter (fun x => !same x)).take 8) }

/-! ### Home slices (R300, R302) -/

/-- The home slice of a physical address, die * 128 + index (R300); a retired slice's lines are homed at the next live one
in index order (R380). -/
def homeSlice (s : State) (pa : Nat) : Nat :=
  let die := dieOfPa pa
  let n := if die < 2 then 64 else 128
  let i := if die < 2 then (pa / 2 ^ 8 % 64) ^^^ (pa / 2 ^ 14 % 64) else (pa / 2 ^ 8 % 128) ^^^ (pa / 2 ^ 15 % 128)
  let gone := (s.die die).slices
  match (List.range n).find? (fun d => !gone.contains ((i + d) % n)) with
  | some d => die * 128 + (i + d) % n
  | none => die * 128 + i

/-- The request port of a die's slices that a core uses (R302): one per cluster of the die, then the bridge links by the die they
reach; Helben's is port 39. -/
def slicePort (die core : Nat) : Nat :=
  if dieOfCore core = die then clusterOfCore core % 36
  else 36 + (if dieOfCore core < die then dieOfCore core else dieOfCore core - 1)

/-- How far a core's port stands from the pointer of the home slice of an address (R302). -/
def portDistance (s : State) (core pa : Nat) : Nat :=
  let g := homeSlice s pa
  (slicePort (g / 128) core + 40 - ((s.die (g / 128)).ports.find (g % 128)).getD 0) % 40

/-- The home slice of an address has accepted a request at a port: its pointer moves past the port (R302). -/
def State.acceptAt (s : State) (port pa : Nat) : State :=
  let g := homeSlice s pa
  let d := s.die (g / 128)
  s.putDie (g / 128) { d with ports := d.ports.put (g % 128) ((port + 1) % 40) }

/-- The home slice has accepted a core's request (R302). -/
def State.acceptPort (s : State) (core pa : Nat) : State := s.acceptAt (slicePort (homeSlice s pa / 128) core) pa

/-- The home slice of a location of DRAM has accepted a core's request for it (R302). -/
def State.acceptLoc (s : State) (core : Nat) (loc : Loc) : State :=
  match loc with
  | .dram pa => s.acceptPort core pa
  | _ => s

/-- The bits of a page-table entry that an access sets (R154): A for a new walk, M for a store through an entry whose M is clear. -/
def Hit.sets (h : Hit) (kind : AccessKind) : Word :=
  (if h.walked then 0x40 else 0) ||| (if kind == .store && !pteM h.entry.pte then 0x80 else 0)

/-- What an access that passed its checks does to the page table and the TLBs: a new entry sets A and fills the TLBs; the
first store through an entry whose M is clear sets M (R154). The bits are set by an atomic OR at the entry's home slice, which recalls every
copy of the line (R301) and accepts it at the core's port (R302). -/
def touch (s : State) (core : Option Nat) (kind : AccessKind) (h : Hit) : State :=
  if h.sets kind = 0 then s else
  let now : Word := BitVec.ofNat 64 (s.mem.readLE h.entry.pteAddr 8)
  let s1 := { s with mem := s.mem.writeLE h.entry.pteAddr 8 (now ||| h.sets kind).toNat,
                     dir := recallDir s.dir h.entry.pteAddr 8 }
  match core with
  | some c => fillTlb (s1.acceptPort c h.entry.pteAddr) c { h.entry with pte := h.entry.pte ||| h.sets kind }
  | none => s1

/-- The GLOBAL address that a GLOBAL or PRIVATE pointer names (R11). -/
def globalOf (privbase ptr : Word) : Option Nat :=
  match (ptr.extractLsb' 60 4).toNat with
  | 0 => some (ptr.extractLsb' 0 52).toNat
  | 3 => some ((privbase.extractLsb' 0 52).toNat + (ptr.extractLsb' 0 32).toNat)
  | _ => none

/-- The state in which an access traps: a leaf with more than one of D, L and K that a new walk found is held in the TLBs as it stands
(R151). The walk ran as one for a load; a store's would find the same leaf. -/
def State.holdLeaf (s : State) (tr : Trap) : State :=
  if tr.cause != .attributeConflict then s else
  match s.current with
  | none => s
  | some th =>
    match globalOf th.privbase tr.val with
    | none => s
    | some va =>
      match walk s none (cxOf s th).asid (cxOf s th).ptbase va with
      | .leaf e =>
        if attrsOk e.pte || (tlbFind s th.core (cxOf s th).asid va).isSome then s
        else touch s (some th.core) .load { entry := e, walked := true }
      | _ => s

/-- The meaning of an instruction whose checks may make it wait: while they do, it is withdrawn and nothing changes. -/
def runCheck (s : State) (k : Thread → Check State) : Outcome :=
  match s.current with
  | none => .fault .noThread
  | some th =>
    match k th with
    | .ok s' => .next s'
    | .error (some tr) => .next ((s.holdLeaf tr).takeTrap s.cur tr)
    | .error none => .next s

/-! ### Pointer spaces -/

/-- A pointer after the checks of its space (R11, R147). -/
inductive Space where
  | global (va : Nat)
  | priv (sum : Nat)
  | bank (cluster bank off win : Nat)
  | remote (dev addr : Nat)
  | control (unit : Nat) (clusterBlock : Bool) (off : Nat)
  deriving DecidableEq, Repr

/-- The CONTROL registers (R148), by block and offset, and whether each is writable. -/
def controlWritable (clusterBlock : Bool) (off : Nat) : Option Bool :=
  if clusterBlock then (if off / 8 = 0 then some false else none)
  else match off / 8 with
    | 0 => some true
    | 1 => some true
    | 2 => some true
    | 3 => some true
    | 4 => some false
    | _ => none

/-- Order 1 of R116: CONTROL in user mode first (R147), then the layout of the space (R11). `ctl` says whether the
instruction reaches CONTROL registers. -/
def spaceOf (cx : Cx) (cluster : Nat) (kind : AccessKind) (ctl : Bool) (ptr : Word) : Except Trap Space :=
  let bad : Except Trap Space := .error { cause := .spaceInvalid, val := ptr }
  match (ptr.extractLsb' 60 4).toNat with
  | 0 => if 3 < (ptr.extractLsb' 56 4).toNat ∨ ptr.extractLsb' 52 4 ≠ 0 then bad
      else .ok (.global (ptr.extractLsb' 0 52).toNat)
  | 1 => if ptr.extractLsb' 57 3 = 7 ∨ ptr.extractLsb' 22 35 ≠ 0 then bad
      else .ok (.bank cluster (ptr.extractLsb' 17 5).toNat (ptr.extractLsb' 0 17).toNat (ptr.extractLsb' 57 3).toNat)
  | 2 => if ptr.extractLsb' 57 3 = 7 ∨ 35 < (ptr.extractLsb' 42 6).toNat ∨ ptr.extractLsb' 48 9 ≠ 0
          ∨ ptr.extractLsb' 22 20 ≠ 0 then bad
      else .ok (.bank (cluster / 36 * 36 + (ptr.extractLsb' 42 6).toNat) (ptr.extractLsb' 17 5).toNat
        (ptr.extractLsb' 0 17).toNat (ptr.extractLsb' 57 3).toNat)
  | 3 => if ptr.extractLsb' 32 28 ≠ 0 then bad
      else .ok (.priv ((cx.privbase.extractLsb' 0 52).toNat + (ptr.extractLsb' 0 32).toNat))
  | 4 => .ok (.remote (ptr.extractLsb' 52 8).toNat (ptr.extractLsb' 0 52).toNat)
  | 15 =>
    if cx.mode = .user then .error { cause := .privileged, val := ptr }
    else
      let die := (ptr.extractLsb' 35 2).toNat
      let cl := (ptr.extractLsb' 29 6).toNat
      let core := (ptr.extractLsb' 24 5).toNat
      let block := (ptr.extractLsb' 16 8).toNat
      let off := (ptr.extractLsb' 0 16).toNat
      if !ctl ∨ ptr.extractLsb' 37 23 ≠ 0 ∨ 35 < cl ∨ 1 < block ∨ (block = 1 ∧ core ≠ 0) then bad
      else match controlWritable (block == 1) off with
        | none => bad
        | some w => if kind = .store ∧ w = false then bad
            else .ok (.control (if block = 1 then die * 36 + cl else die * 1152 + cl * 32 + core) (block == 1) off)
  | _ => bad

/-! ### Bank modes -/

/-- Which engine makes an access to a bank (R14). -/
inductive Role where
  | scalar
  | engineLoad
  | engineStore
  deriving DecidableEq, Repr

/-- The bytes per stage of a configuration word (R249). -/
def stageBytes (size : Nat) : Nat := 64 * 2 ^ size

/-- Order 7 of R116 for a bank (R14). A bank whose mode change is in progress makes the access wait (R15). -/
def bankCheck (s : State) (handle cluster bank off : Nat) (role : Role) (ptr : Word) : Check Unit :=
  let b := s.bank (cluster * 32 + bank)
  if b.changes ≠ [] then stall else
  match b.mode with
  | .cache => trapOf .bankModeMismatch ptr
  | .scratch => .ok ()
  | .meet _ => trapOf .bankModeMismatch ptr
  | .fifo c =>
    match role with
    | .scalar => trapOf .bankModeMismatch ptr
    | .engineLoad =>
      if c.reader.isSome ∧ c.reader = (s.inSlot handle).map (·.1) ∧ c.rheld = some (off / stageBytes c.size) then .ok ()
      else trapOf .channelMisuse ptr
    | .engineStore =>
      if (s.inSlot handle).map (fun p => Writer.thread p.1) = some c.writer ∧ c.wheld = some (off / stageBytes c.size) then .ok ()
      else trapOf .channelMisuse ptr

/-- Whether REMOTE [59:52] names a package that the fabric reaches (R370, R371): in switched mode a number below 192 of a live package
or of this one, in torus mode a direction code of a configured dimension. -/
def reachable (f : Fabric) (dev : Nat) : Bool :=
  if f.torus then
    decide (192 ≤ dev) && decide (dev % 8 ≠ 0) && f.dims.contains (dev / 16 % 4)
  else decide (dev < 192) && (dev == f.device || f.live.contains dev)

/-- Whether a reachable REMOTE [59:52] names this package: its own number in switched mode (R370), and in torus mode a number of hops
that goes round the ring of its dimension (R371). -/
def isOwn (f : Fabric) (dev : Nat) : Bool :=
  if f.torus then
    let n := f.rings.getD (dev / 16 % 4) 0
    n != 0 && dev % 8 % n == 0
  else dev == f.device

/-! ### Bank ports -/

/-- The place of a requester in the round-robin order of a bank's port (R92): the cores of the bank's cluster, its copy engine, then the
other clusters of the die. -/
def portPlace (bank cluster : Nat) (core : Option Nat) : Nat :=
  if bank / 32 = cluster then (match core with
    | some c => c % 32
    | none => 32)
  else 33 + (if cluster % 36 < bank / 32 % 36 then cluster % 36 else cluster % 36 - 1)

/-- How far a requester stands from a bank port's pointer: the least is granted first (R92). -/
def bankDistance (s : State) (bank place : Nat) : Nat := (place + 68 - (s.bank bank).port) % 68

/-- The port of a bank grants a requester an access that takes `n` cycles, one for every 128 bytes, and its pointer moves past it (R92,
R222). -/
def grantPort (s : State) (bank place n : Nat) : State :=
  s.putBank bank { s.bank bank with port := (place + 1) % 68, granted := s.cycle + n }

/-- Whether the port of a bank is held in this cycle by an access that it has granted. -/
def portBusy (s : State) (bank : Nat) : Bool := decide (s.cycle < (s.bank bank).granted)

/-- The copy engines that have moved bytes through a port make the rest of their accesses in the cycles in which no one else holds it, the
nearest to the pointer first (R92). -/
def drainPort (cycle : Nat) (b : Bank) : Bank :=
  if cycle < b.granted then b else
  match b.engines.foldl (fun (best : Option (Nat × Nat)) p =>
      match best with
      | some x => if (p.1 + 68 - b.port) % 68 < (x.1 + 68 - b.port) % 68 then some p else some x
      | none => some p) none with
  | some (place, n) => { b with port := (place + 1) % 68, granted := cycle + 1,
                                engines := if n ≤ 1 then b.engines.drop place else b.engines.put place (n - 1) }
  | none => b

/-- The ports of all banks at the end of a cycle. -/
def drainPorts (s : State) : State :=
  if s.clusters.all (fun p => p.2.banks.all (fun b => b.2.engines.isEmpty)) then s
  else { s with clusters := s.clusters.map (fun p => (p.1, { p.2 with banks := p.2.banks.map (fun b => (b.1, drainPort s.cycle b.2)) })) }

/-! ### The checks of one access -/

/-- An access that passed its checks. -/
structure Acc where
  ptr   : Word
  loc   : Loc
  hit   : Option Hit
  win   : Nat
  deriving DecidableEq, Repr

/-- Whether the access touches a page with L set. -/
def Acc.lpage (a : Acc) : Bool := (a.hit.map (fun h => pteL h.entry.pte)).getD false
/-- Whether the access touches a page with D set. -/
def Acc.dpage (a : Acc) : Bool := (a.hit.map (fun h => pteD h.entry.pte)).getD false
/-- Whether the access touches a page with K set. -/
def Acc.kpage (a : Acc) : Bool := (a.hit.map (fun h => pteK h.entry.pte)).getD false

/-- The key of a byte of a bank in `State.sram`. -/
def bankKey (cluster bank off : Nat) : Nat := (cluster * 32 + bank) * 2 ^ 17 + off

/-- Whether n bytes at a pointer meet a watch address of the partition of a core (R138, R376; log 14). -/
def watched (s : State) (core : Nat) (ptr : Word) (n : Nat) : Bool :=
  ((s.helben.watch.find (s.cluster (clusterOfCore core)).partId).getD []).any (fun w => decide (ptr.toNat ≤ w.toNat) && decide (w.toNat < ptr.toNat + n))

/-- Whether a pointer lies in the REMOTE space (R11). -/
def isRemotePtr (ptr : Word) : Bool := ptr.extractLsb' 60 4 == 4

/-- The cause that a status of another package stands for (R372; log 6), none where it admits the access. -/
def remoteCause (kind : AccessKind) (status : Nat) : Option Cause :=
  match status with
  | 1 => some (pageFaultOf kind)
  | 2 => some (protectionOf kind)
  | 3 => some .pageTableCorrupt
  | 4 => some .attributeConflict
  | 5 => if kind = .store then some .kvNotOwner else none
  | 6 => if kind = .store then some .kvSharedWrite else none
  | 7 => some .thunkInvalid
  | _ => none

/-- The context of an access through this package's own REMOTE number: it is translated under the table that Helben binds to the
requesting package, which is this one (R370, R372; log 44). -/
def ownCx (cx : Cx) (root : Word) : Cx := { cx with core := none, asid := 0, ptbase := root }

/-- Orders 1 to 7 of R116 for an access of n bytes at a pointer, aligned to `align`; `attrs` false leaves order 5 out. -/
def checkAccess (s : State) (cx : Cx) (handle : Nat) (kind : AccessKind) (role : Role) (ctl : Bool) (ptr : Word)
    (n align : Nat) : Check Acc :=
  let cluster := clusterOfCore (coreOfHandle handle)
  match spaceOf cx cluster kind ctl ptr with
  | .error t => .error (some t)
  | .ok sp =>
    if ptr.toNat % align ≠ 0 then trapOf (misalignedOf kind) ptr else
    match sp with
    | .control unit cb off =>
      .ok { ptr := ptr, loc := .control unit cb off, hit := none, win := 0 }
    | .bank cl b off win =>
      if 2 ^ 17 < off + n then trapOf (misalignedOf kind) ptr else
      match bankCheck s handle cl b off role ptr with
      | .error e => .error e
      | .ok () => if watched s (coreOfHandle handle) ptr n then trapOf .debugWatch ptr
          else .ok { ptr := ptr, loc := .bank (bankKey cl b off), hit := none, win := win }
    | .remote dev addr =>
      if !reachable s.fabric dev then trapOf .remoteUnreachable ptr
      else if isOwn s.fabric dev then ownRemote s.fabric.device addr
      else match remoteCause kind (Config.remoteStatus s.cycle ptr) with
        | some c => trapOf c ptr
        | none =>
          if watched s (coreOfHandle handle) ptr n then trapOf .debugWatch ptr
          else .ok { ptr := ptr, loc := .remote dev addr, hit := none, win := 0 }
    | .priv sum =>
      if 2 ^ 52 ≤ sum + n - 1 then trapOf (pageFaultOf kind) ptr
      else globalAccess sum
    | .global va => globalAccess va
where
  /-- Orders 3 to 6 for a GLOBAL address, or the GLOBAL form of a PRIVATE one. -/
  globalAccess (va : Nat) : Check Acc :=
    match translate s cx kind va ptr with
    | .error e => .error e
    | .ok h =>
      if !attrsOk h.entry.pte then trapOf .attributeConflict ptr else
      match (if kind = .store then checkKv s cx h va ptr else .ok h) with
      | .error e => .error e
      | .ok h' => if watched s (coreOfHandle handle) ptr n then trapOf .debugWatch ptr
          else .ok { ptr := ptr, loc := .dram (h'.entry.pa va), hit := some h', win := 0 }
  /-- A REMOTE address of the issuer's own package (R370, R372). Its word's tag is met where the access is performed (R319, R329). -/
  ownRemote (dev va : Nat) : Check Acc :=
    match s.helben.remotes.find dev with
    | none => trapOf (pageFaultOf kind) ptr
    | some root =>
      match walkHit s (ownCx cx root) kind va ptr with
      | .error e => .error e
      | .ok h =>
        if !attrsOk h.entry.pte then trapOf .attributeConflict ptr else
        match (if kind = .store then kvStoreCause cx.die h.entry.pte else none) with
        | some c => trapOf c ptr
        | none =>
          if watched s (coreOfHandle handle) ptr n then trapOf .debugWatch ptr
          else .ok { ptr := ptr, loc := .dram (h.entry.pa va), hit := some h, win := 8 }

/-- The page-table and TLB effects of an access that passed its checks. -/
def touchAcc (s : State) (core : Option Nat) (kind : AccessKind) (a : Acc) : State :=
  match a.hit with
  | some h => touch s (if a.win = 8 then none else core) kind h
  | none => s

/-! ### The bytes of a location -/

/-- The value of a CONTROL register (R148). -/
def controlRead (s : State) (unit : Nat) (clusterBlock : Bool) (off : Nat) : Word :=
  if clusterBlock then BitVec.ofNat 64 ((s.cluster unit).partId % 256)
  else
    let c := s.core unit
    match off / 8 with
    | 0 => c.ctxspill
    | 1 => c.ctxsplen
    | 2 => c.deqspill
    | 3 => c.wdog
    | _ =>
      let cached := (s.threads.filter (fun p => match p.2.place with
        | .cached h => coreOfHandle h == unit
        | _ => false)).length
      let spilled := (s.threads.filter (fun p => match p.2.place with
        | .spilled h _ => coreOfHandle h == unit
        | _ => false)).length
      BitVec.ofNat 64 (cached % 16 + spilled % 65536 * 65536)

/-- A write of a CONTROL register (R148): only its fields are kept; CTXSPILL and CTXSPLEN keep their values while records
are in the spill area. -/
def controlWrite (s : State) (unit : Nat) (off : Nat) (v : Word) : State :=
  let c := s.core unit
  let spilled := (controlRead s unit false 0x20).extractLsb' 16 16 != 0
  match off / 8 with
  | 0 => if spilled then s else s.putCore unit { c with ctxspill := v &&& 0x0000FFFFFFFFFF00 }
  | 1 => if spilled then s else s.putCore unit { c with ctxsplen := v &&& 0xFFFF }
  | 2 => s.putCore unit { c with deqspill := v &&& 0x0000FFFFFFFFFF00 }
  | 3 => s.putCore unit { c with wdog := v &&& 0xFFFFFFFF }
  | _ => s

/-- The n bytes at a location as a little-endian number. A REMOTE location of another package holds what that package
holds: a free value (log 6). -/
def readLoc (s : State) (loc : Loc) (n : Nat) : Nat :=
  match loc with
  | .dram pa => s.mem.readLE pa n
  | .bank key => s.sram.readLE key n
  | .control u cb off => (controlRead s u cb off).toNat
  | .remote _ _ => (Config.freeValue s.free).toNat % 2 ^ (8 * n)

/-- The state after a read of a location: a free value is used once. -/
def afterRead (s : State) (loc : Loc) : State :=
  match loc with
  | .remote _ _ => { s with free := s.free + 1 }
  | _ => s

/-- Writes the low n bytes of a number at a location. `keep` is the word whose tag stays EVALUATING. -/
def writeLoc (s : State) (keep : Option Nat) (loc : Loc) (n v : Nat) : State :=
  match loc with
  | .dram pa => s.storePa keep pa n v
  | .bank key => s.storeSram key n v
  | .control u _ off => controlWrite s u off (BitVec.ofNat 64 v)
  | .remote _ _ => s

/-- Whether the data at a location is uncorrectable (order 8 of R116). What another package holds is not known here (log 6). -/
def locBad (s : State) (loc : Loc) (n : Nat) : Bool :=
  match loc with
  | .dram pa => s.isBad pa n
  | .bank key => s.isBadSram key n
  | .remote dev addr => Config.remoteBad s.cycle dev addr
  | .control _ _ _ => false

/-! ### Loads and stores that an instruction makes as part of its own work -/

/-- Whether an access through the REMOTE space meets a word of an L page whose tag is not VALUE: no tag acts across the fabric, and it traps
THUNK_INVALID (R329). -/
def remoteTagged (s : State) (loc : Loc) (lpage : Bool) (ptr : Word) : Bool :=
  match loc with
  | .dram pa => lpage && isRemotePtr ptr && s.tag pa != 0
  | _ => false

/-- A load of n bytes under R116 that completes at once: its value and the state with its TLB effects. A tag other than
VALUE is not acted on, but for one that is met through the REMOTE space (R329). -/
def loadNow (s : State) (cx : Cx) (handle : Nat) (ptr : Word) (n : Nat) : Check (Nat × State) :=
  match checkAccess s cx handle .load .scalar false ptr n n with
  | .error e => .error e
  | .ok a =>
    if lineHeld s a.loc n then stall
    else if locBad s a.loc n then trapOf .uncorrectableData ptr
    else if remoteTagged s a.loc a.lpage ptr then trapOf .thunkInvalid ptr
    else .ok (readLoc s a.loc n, afterRead (touchAcc s cx.core .load a) a.loc)

/-- k loads of 8 bytes at rising addresses (R276, R289): the words and the state. -/
def loadWords (s : State) (cx : Cx) (handle : Nat) (ptr : Word) : Nat → Check (List Word × State)
  | 0 => .ok ([], s)
  | k + 1 =>
    match loadNow s cx handle ptr 8 with
    | .error e => .error e
    | .ok (v, s1) =>
      match loadWords s1 cx handle (ptr + 8) k with
      | .error e => .error e
      | .ok (rest, s2) => .ok (BitVec.ofNat 64 v :: rest, s2)

/-- Whether the tag of the word at a physical address cannot be read: its word holds uncorrectable data (R317, R379). -/
def tagBad (s : State) (pa : Nat) : Bool :=
  match s.bad.find (pa / 32) with
  | some m => m &&& lineMask (pa / 32) (pa / 8 * 8) 8 != 0
  | none => false

/-- How a store meets the tag of its word on an L page (R317, R319, R329): the word whose tag stays EVALUATING, or UNCORRECTABLE_DATA,
THUNK_INVALID through the REMOTE space, or CELL_BUSY_WRITE. -/
def storeTag (s : State) (evalOf : Option Nat) (loc : Loc) (lpage : Bool) (ptr : Word) : Except Trap (Option Nat) :=
  match loc with
  | .dram pa =>
    if lpage && tagBad s pa then .error { cause := .uncorrectableData, val := ptr }
    else if remoteTagged s loc lpage ptr then .error { cause := .thunkInvalid, val := ptr }
    else if lpage && s.tag pa == 2 then
      if evalOf == some (pa / 8 * 8) then .ok (some (pa / 8)) else .error { cause := .cellBusyWrite, val := ptr }
    else .ok none
  | .remote _ _ => if locBad s loc 1 then .error { cause := .uncorrectableData, val := ptr } else .ok none
  | _ => .ok none

/-- A store of n bytes under R116 that is performed at once, as R317 and R319 state. -/
def storeNow (s : State) (cx : Cx) (handle : Nat) (evalOf : Option Nat) (ptr : Word) (n v : Nat) : Check State :=
  match checkAccess s cx handle .store .scalar false ptr n n with
  | .error e => .error e
  | .ok a =>
    if lineHeld s a.loc n then stall else
    match storeTag s evalOf a.loc a.lpage ptr with
    | .error t => .error (some t)
    | .ok keep => .ok (writeLoc (touchAcc s cx.core .store a) keep a.loc n v)

end Sys2Proof.Machine
end

