-- ==== Sys2Proof/Machine/Context.lean ====
section
/-!
DEFINITION. The context record (R99, R100), the thread-context cache and its spill area (R144), leaving a slot and
returning to one (R18, R145), and the work identifier's fields (R97, R98).
-/
namespace Sys2Proof.Machine

/-- The word of a record at a byte offset. -/
def recordAt (l : List Word) (off : Nat) : Word := l.getD (off / 8) 0

/-- The checks of R100: the CHECK word, the zero fields, and the park kind. -/
def recordValid (l : List Word) : Bool :=
  let st := recordAt l 4584
  let ck := recordAt l 4832
  ck.extractLsb' 32 32 == recordXor (l.take 604) && ck.extractLsb' 17 15 == 0
    && st.extractLsb' 1 7 == 0 && st.extractLsb' 22 42 == 0 && decide ((st.extractLsb' 17 4).toNat ≤ 5)
    && recordAt l 4840 == 0 && recordAt l 4848 == 0 && recordAt l 4856 == 0

/-- A record whose thread holds tiles is restored only on the core that its CHECK word names (R100); a handle of a cluster from 36 on names
none (R9). -/
def recordCoreOk (l : List Word) (core : Nat) : Bool :=
  (recordAt l 4584).extractLsb' 8 8 == 0 || coreOfCsr (((recordAt l 4832).extractLsb' 0 17).toNat / 16) == some core

/-- Reloads the registers and CSRs of a record (R99, R100). Bits beyond a field's width are dropped (R96). With wake pending the parked
instruction retires with its delivered result, unless the thread performs it again (R100, R325; log 58). The parked bit and a park kind of a
record without wake pending are ignored: the thread goes on at its PC (log 69). -/
def loadRecord (th : Thread) (l : List Word) : Thread :=
  let c := fun i => recordAt l (4592 + 8 * i)
  let retires := (recordAt l 4584).getLsbD 21 && !th.again
  { th with
      x := Vector.ofFn (fun i : Fin 32 => if i.val = 0 then 0 else recordAt l (8 * i.val)),
      v := Vector.ofFn (fun i : Fin 16 => vOfElems 64 ((List.range 32).map (fun j => (recordAt l (256 + 256 * i.val + 8 * j)).toNat))),
      m := Vector.ofFn (fun i : Fin 8 => if i.val = 0 then 0 else
        BitVec.ofNat 256 (packElems 64 ((List.range 4).map (fun j => (recordAt l (4320 + 32 * i.val + 8 * j)).toNat)))),
      pc := if retires then recordAt l 4576 + 4 else recordAt l 4576, mode := Mode.ofBit ((recordAt l 4584).getLsbD 0),
      fflags := (c 0).truncate 5, frm := (c 1).truncate 2, ftrap := (c 2).truncate 5, flagorg := c 3,
      mult := (c 4).truncate 32, live := (c 5).truncate 32 &&& ~~~ 1, wid := c 6, lctx := (c 13).truncate 16, cell := c 14,
      widself := c 15, privbase := c 16 &&& 0x000FFFFFFFFF0000, instret := if retires then c 17 + 1 else c 17, utvec := c 18 &&& ~~~ 3, uepc := c 19,
      ucause := c 20 &&& 0x3F, uval := c 21, uskip := c 22, mxcfg := c 23 &&& 7, mxcnt := c 24, epc := c 25, cause := c 26 &&& 0x3F, eval := c 27,
      eskip := c 28, emode := Mode.ofBit ((c 29).getLsbD 0) }

/-- Reads words at rising physical addresses. -/
def readWordsPa (s : State) (pa : Nat) : Nat → List Word
  | 0 => []
  | n + 1 => BitVec.ofNat 64 (s.mem.readLE pa 8) :: readWordsPa s (pa + 8) n

/-! ### The thread-context cache -/

/-- The threads in the context cache of a core. -/
def cachedOn (s : State) (core : Nat) : List (Nat × Thread) :=
  s.threads.filter (fun p => match p.2.place with
    | .cached h => coreOfHandle h == core
    | _ => false)

/-- The threads in the spill area of a core, with their record numbers. -/
def spilledOn (s : State) (core : Nat) : List (Nat × Nat) :=
  s.threads.filterMap (fun p => match p.2.place with
    | .spilled h i => if coreOfHandle h == core then some (p.1, i) else none
    | _ => none)

/-- The capacity of a core's spill area: CTXSPLEN records at CTXSPILL, none where they do not lie in DRAM (R148; log 16). -/
def spillCapacity (s : State) (core : Nat) : Nat :=
  let c := s.core core
  if c.ctxspill.toNat + 4864 * c.ctxsplen.toNat ≤ dramEnd then c.ctxsplen.toNat else 0

/-- The lowest record number of a core's spill area that is free. -/
def freeSpill (s : State) (core : Nat) : Option Nat :=
  (List.range (spillCapacity s core)).find? (fun i => !(spilledOn s core).any (fun p => p.2 == i))

/-- The least recently used entry of a context cache: the one that entered it first (R144). -/
def lruCached (s : State) (core : Nat) : Option Nat :=
  ((cachedOn s core).foldl (fun (best : Option (Nat × Nat)) p =>
    match best with
    | some b => if b.2 ≤ p.2.bound then some b else some (p.1, p.2.bound)
    | none => some (p.1, p.2.bound)) none).map (·.1)

/-- A context leaves the cache for the spill area (R144). -/
def spillOne (s : State) (core : Nat) : Option State :=
  match freeSpill s core, lruCached s core with
  | some i, some t =>
    match s.thread t with
    | some th =>
      let s1 := writeLater s (spillAddr s core i) (recordWords s t th th.place.handle)
      some (s1.putThread t { th with place := .spilled th.place.handle i })
    | none => none
  | _, _ => none

/-- Whether a core's context cache or its spill area has room for one more context (R145). -/
def canSave (s : State) (core : Nat) : Bool := decide ((cachedOn s core).length < 8) || (freeSpill s core).isSome

/-- A bound thread leaves its slot for the context cache; none when the cache and the spill area are both full (R145). A choice of its slot
for pre-emption ends with it (R287). -/
def leaveSlot (s : State) (t : Nat) : Option State :=
  match s.thread t with
  | some th =>
    let s1 := if (cachedOn s th.core).length < 8 then some s else spillOne s th.core
    s1.map (fun st => ({ st.putThread t { th with place := .cached th.place.handle, preempt := false, bound := st.seq } with
      seq := st.seq + 1 }).freeSlot th.place.handle)
  | none => none

/-- The current thread parks: it leaves its slot, or waits bound and BUSY where it cannot (R18, R145). -/
def State.park (s : State) (t : Nat) : State := (leaveSlot s t).getD s

/-- The current thread waits and parks. -/
def State.parkCur (s : State) (w : Wait) : State := (s.waitCur w).park s.cur

/-- A wait ends with its result: `f` writes it and the waiting instruction retires (R100, R145). -/
def State.finishWait (s : State) (t : Nat) (f : Thread → Thread) : State :=
  s.wakeWith t false (fun th => (f th).retire s.cycle)

/-- A wait ends in a trap. -/
def State.failWait (s : State) (t : Nat) (tr : Trap) : State := s.wakeTrap t tr

/-- A parked thread whose wait is over, or that was pre-empted, is ready work of its context (R145). -/
def Thread.restorable (th : Thread) : Bool :=
  match th.place with
  | .cached _ => th.wait.isNone
  | .spilled _ _ => th.wait.isNone
  | _ => false

/-- Whether a saved thread's record can be read: one in a line that a copy engine owns waits for it (R23). -/
def recordFree (s : State) (th : Thread) : Bool :=
  match th.place with
  | .spilled h i => !(Late.words (spillAddr s (coreOfHandle h) i) (List.replicate 608 0)).waits s
  | _ => true

/-- A spilled record is checked and returns to the context cache, whose least recently used entry is spilled if there is no other room
(R100, R144); none where the record fails its checks. -/
def unspill (s : State) (t : Nat) (th : Thread) (h i : Nat) : Option State :=
  let core := coreOfHandle h
  let l := readWordsPa s (spillAddr s core i) 608
  if !recordValid l || !recordCoreOk l core then none
  else
    let s1 := { s.putThread t { loadRecord th l with place := .cached h, bound := s.seq } with seq := s.seq + 1 }
    if (cachedOn s1 core).length ≤ 8 then some s1 else some ((spillOne s1 core).getD s1)

/-- A context is bound in a slot: READY 8 cycles after the boundary (R86, R131, R145). -/
def bindSaved (s : State) (t : Nat) (th : Thread) (handle : Nat) : State :=
  { s.putThread t { th with place := .slot handle, wake := false, again := false, lastIssue := some s.cycle, bound := s.seq } with
      seq := s.seq + 1 }

/-- A saved context is bound again in a slot (R145). A spilled record returns to the cache first (R144); one that fails its checks is
not restored (R100). -/
def restoreInto (s : State) (t slot : Nat) : State :=
  match s.thread t with
  | some th =>
    let handle := handleOf th.core slot
    match th.place with
    | .spilled h i =>
      match unspill s t th h i with
      | some s1 => match s1.thread t with
        | some th1 => bindSaved s1 t th1 handle
        | none => s1
      | none => (s.removeThread t).logEvent .contextSwapError h (BitVec.ofNat 64 (spillAddr s (coreOfHandle h) i)) 0
    | _ => bindSaved s t th handle
  | none => s

/-- Whether a thread keeps its handle while it holds no slot (R263): parked in WAITM or RECV, until it is bound again after its wake;
holding a channel end; or with an accepted copy with signal 1 outstanding. -/
def keepsHandle (s : State) (t : Nat) (th : Thread) : Bool :=
  (match th.wait with
    | some (.recv _) => true
    | some (.waitm _ _) => true
    | _ => false)
  || (th.wake && th.kind == 2) || th.copies != 0
  || (s.cluster (clusterOfCore th.core)).banks.any (fun b => match b.2.mode with
      | .fifo c => c.writer == .thread t || c.reader == some t
      | _ => false)

end Sys2Proof.Machine
end

