-- ==== Sys2Proof/Machine/Flags.lean ====
section
/-!
DEFINITION. The floating-point flags: their accumulation at retirement with FLAGORG (R95, R124), and the trap that an
enabled flag raises (R140).
-/
namespace Sys2Proof.Machine

/-- NV, DZ, OF, UF and NX as FFLAGS holds them (R95). -/
def flagNV : BitVec 5 := 1
def flagDZ : BitVec 5 := 2
def flagOF : BitVec 5 := 4
def flagUF : BitVec 5 := 8
def flagNX : BitVec 5 := 16

/-- A retiring instruction at `pc` raises flags: FLAGORG is set while FFLAGS is all zero (R95). -/
def Thread.raise (th : Thread) (pc : Word) (fl : BitVec 5) : Thread :=
  { th with flagorg := if th.fflags = 0 ∧ fl ≠ 0 then pc else th.flagorg, fflags := th.fflags ||| fl }

/-- The lowest cause among enabled flags (R140). -/
def lowestFpCause (on : BitVec 5) : Cause :=
  if on.getLsbD 0 then .fpInvalid
  else if on.getLsbD 1 then .fpDivzero
  else if on.getLsbD 2 then .fpOverflow
  else if on.getLsbD 3 then .fpUnderflow
  else .fpInexact

/-- The OR of the flags of every element. -/
def orFlags (l : List (BitVec 5)) : BitVec 5 := l.foldl (· ||| ·) 0

/-- The lowest index at which an enabled flag was raised. -/
def firstEnabled (enabled : BitVec 5) (l : List (Nat × BitVec 5)) : Nat :=
  match l.filter (fun p => p.2 &&& enabled != 0) with
  | [] => 0
  | p :: rest => rest.foldl (fun m q => min m q.1) p.1

/-- The trap of an instruction whose elements raised the given flags, when one of them is enabled (R140): EVAL [4:0] holds
every flag raised, EVAL [31:16] the lowest element at which an enabled one was. -/
def fpTrap (enabled : BitVec 5) (l : List (Nat × BitVec 5)) : Option Trap :=
  let all := orFlags (l.map (·.2))
  if all &&& enabled = 0 then none
  else some { cause := lowestFpCause (all &&& enabled),
              val := BitVec.ofNat 64 (all.toNat + firstEnabled enabled l * 65536) }

/-- The thread's instruction at its PC raises flags and goes on, or traps with nothing written. -/
def Thread.withFlags (th : Thread) (l : List (Nat × BitVec 5)) (k : Thread → Thread) : Except Trap Thread :=
  match fpTrap th.ftrap l with
  | some t => .error t
  | none => .ok ((k th).raise th.pc (orFlags (l.map (·.2))))

end Sys2Proof.Machine
end

