-- ==== Sys2Proof/Machine/Float.lean ====
section
/-!
DEFINITION. Floating-point arithmetic (10_numbers R181 to R196): the formats, exact values, one rounding with its
flags, overflow and narrowing, and the functions that round once. A pattern is a number below 2 ^ bits.
-/
namespace Sys2Proof.Machine

/-- A floating-point format (R182): exponent bits, fraction bits, bias, and whether it is E4M3 (R183). -/
structure Fmt where
  ebits : Nat
  mbits : Nat
  bias  : Nat
  e4m3  : Bool
  deriving DecidableEq, Repr

def fp32 : Fmt := { ebits := 8, mbits := 23, bias := 127, e4m3 := false }
def fp16 : Fmt := { ebits := 5, mbits := 10, bias := 15, e4m3 := false }
def bf16 : Fmt := { ebits := 8, mbits := 7, bias := 127, e4m3 := false }
def e4m3 : Fmt := { ebits := 4, mbits := 3, bias := 7, e4m3 := true }
def e5m2 : Fmt := { ebits := 5, mbits := 2, bias := 15, e4m3 := false }
def fp40 : Fmt := { ebits := 8, mbits := 31, bias := 127, e4m3 := false }

/-- The width of a format. -/
def Fmt.bits (F : Fmt) : Nat := 1 + F.ebits + F.mbits

/-- A value: a NaN (signalling or quiet), an infinity, or (−1)^neg × m × 2^e. -/
inductive FVal where
  | nan (signalling : Bool)
  | inf (neg : Bool)
  | fin (neg : Bool) (m : Nat) (e : Int)
  deriving DecidableEq, Repr

/-- The value of a pattern (R181 to R184). -/
def Fmt.decode (F : Fmt) (w : Nat) : FVal :=
  let neg := w / 2 ^ (F.ebits + F.mbits) % 2 == 1
  let e := w / 2 ^ F.mbits % 2 ^ F.ebits
  let frac := w % 2 ^ F.mbits
  if F.e4m3 then
    if e = 15 ∧ frac = 7 then .nan false
    else if e = 0 then .fin neg frac (1 - (F.bias + F.mbits : Nat))
    else .fin neg (2 ^ F.mbits + frac) ((e : Int) - (F.bias + F.mbits : Nat))
  else if e = 2 ^ F.ebits - 1 then
    if frac = 0 then .inf neg else .nan (decide (frac < 2 ^ (F.mbits - 1)))
  else if e = 0 then .fin neg frac (1 - (F.bias + F.mbits : Nat))
  else .fin neg (2 ^ F.mbits + frac) ((e : Int) - (F.bias + F.mbits : Nat))

/-- The canonical NaN of a format (R182). -/
def Fmt.canonicalNaN (F : Fmt) : Nat :=
  if F.e4m3 then 0x7F else (2 ^ F.ebits - 1) * 2 ^ F.mbits + 2 ^ (F.mbits - 1)
/-- The largest finite magnitude (R182). -/
def Fmt.maxFinite (F : Fmt) : Nat := if F.e4m3 then 0x7E else (2 ^ F.ebits - 1) * 2 ^ F.mbits - 1
/-- Puts the sign on a magnitude. -/
def Fmt.sign (F : Fmt) (neg : Bool) (mag : Nat) : Nat := (if neg then 2 ^ (F.ebits + F.mbits) else 0) + mag
/-- The infinity of a format; E4M3 has none and gives its NaN. -/
def Fmt.infinity (F : Fmt) (neg : Bool) : Nat :=
  if F.e4m3 then F.canonicalNaN else F.sign neg ((2 ^ F.ebits - 1) * 2 ^ F.mbits)
/-- The exponent of the lowest bit of a subnormal. -/
def Fmt.low (F : Fmt) : Int := 1 - (F.bias + F.mbits : Nat)

/-- Rounding modes (R188). -/
def rne : BitVec 2 := 0
def rtz : BitVec 2 := 1
def rdn : BitVec 2 := 2
def rup : BitVec 2 := 3

/-- Whether a magnitude is rounded up (R188): `odd` its lowest kept bit, `cmp` how what is dropped compares with half
(0 nothing dropped, 1 below, 2 tie, 3 above). -/
def roundsUp (mode : BitVec 2) (neg odd : Bool) (cmp : Nat) : Bool :=
  if cmp = 0 then false
  else if mode = rne then cmp == 3 || (cmp == 2 && odd)
  else if mode = rtz then false
  else if mode = rdn then neg
  else !neg

/-- m × 2^e, plus a part below 2^e when `sticky`, rounded to a multiple of 2^l: the quotient and whether it is inexact.
With `sticky`, l is above e. -/
def roundAt (mode : BitVec 2) (neg : Bool) (m : Nat) (e : Int) (sticky : Bool) (l : Int) : Nat × Bool :=
  if l ≤ e then (m * 2 ^ (e - l).toNat, sticky)
  else
    let sh := (l - e).toNat
    let q := m / 2 ^ sh
    let r := m % 2 ^ sh
    let half := 2 ^ (sh - 1)
    let cmp := if r = 0 ∧ sticky = false then 0
      else if r < half then 1
      else if r = half ∧ sticky = false then 2
      else 3
    (if roundsUp mode neg (q % 2 == 1) cmp then q + 1 else q, cmp != 0)

/-- How many bits a number has. -/
def bitLen (m : Nat) : Nat := if m = 0 then 0 else m.log2 + 1

/-- A rounded magnitude in a format before overflow is judged (R188): its code with an unbounded exponent, whether it is
inexact and whether it is tiny (R191). -/
structure Rounded where
  q       : Nat
  l       : Int
  inexact : Bool
  tiny    : Bool
  deriving DecidableEq, Repr

/-- Rounds a nonzero magnitude to a format (R188, R191). -/
def Fmt.round (F : Fmt) (mode : BitVec 2) (neg : Bool) (m : Nat) (e : Int) (sticky : Bool) : Rounded :=
  let p := F.mbits + 1
  let free : Int := e + (bitLen m : Int) - (p : Int)
  let l := max free F.low
  let r := roundAt mode neg m e sticky l
  let u := roundAt mode neg m e sticky free
  { q := r.1, l := l, inexact := r.2,
    tiny := decide (free < F.low) && !(decide (free = F.low - 1) && u.1 == 2 ^ p) }

/-- The magnitude code of a rounded value: its exponent field may pass the format's largest. -/
def Fmt.code (F : Fmt) (r : Rounded) : Nat :=
  let q := if r.q = 2 ^ (F.mbits + 1) then 2 ^ F.mbits else r.q
  let l := if r.q = 2 ^ (F.mbits + 1) then r.l + 1 else r.l
  if q < 2 ^ F.mbits then q
  else (l + (F.mbits + F.bias : Nat)).toNat * 2 ^ F.mbits + (q - 2 ^ F.mbits)

/-- The flags of a rounded value in range (R191, R192). -/
def Rounded.flags (r : Rounded) : BitVec 5 :=
  (if r.inexact then flagNX else 0) ||| (if r.inexact && r.tiny then flagUF else 0)

/-- A result: its pattern and its flags. -/
abbrev FRes := Nat × BitVec 5

/-- Arithmetic rounding with the overflow of R190. A zero magnitude that is exact keeps its sign. -/
def Fmt.arith (F : Fmt) (mode : BitVec 2) (neg : Bool) (m : Nat) (e : Int) (sticky : Bool) : FRes :=
  if m = 0 ∧ sticky = false then (F.sign neg 0, 0)
  else
    let r := F.round mode neg m e sticky
    let c := F.code r
    if F.maxFinite < c then
      let toInf := mode = rne ∨ (mode = rdn ∧ neg = true) ∨ (mode = rup ∧ neg = false)
      (if toInf then F.infinity neg else F.sign neg F.maxFinite, flagOF ||| flagNX)
    else (F.sign neg c, r.flags)

/-- A narrowing conversion of a value (R193). -/
def Fmt.narrow (F : Fmt) (mode : BitVec 2) : FVal → FRes
  | .nan s => (F.canonicalNaN, if s then flagNV else 0)
  | .inf neg => (F.sign neg F.maxFinite, flagOF ||| flagNX)
  | .fin neg m e =>
    if m = 0 then (F.sign neg 0, 0)
    else
      let r := F.round mode neg m e false
      let c := F.code r
      if F.maxFinite < c then (F.sign neg F.maxFinite, flagOF ||| flagNX) else (F.sign neg c, r.flags)

/-- A widening conversion (R194). -/
def Fmt.widen (F : Fmt) : FVal → FRes
  | .nan s => (F.canonicalNaN, if s then flagNV else 0)
  | .inf neg => (F.infinity neg, 0)
  | .fin neg m e => F.arith rne neg m e false

/-- A conversion to an integer of n bits (R193). The result is in two's complement. -/
def toInteger (n : Nat) (mode : BitVec 2) : FVal → FRes
  | .nan _ => (0, flagNV)
  | .inf neg => (if neg then 2 ^ (n - 1) else 2 ^ (n - 1) - 1, flagOF ||| flagNX)
  | .fin neg m e =>
    let r := roundAt mode neg m e false 0
    if neg then
      if 2 ^ (n - 1) < r.1 then (2 ^ (n - 1), flagOF ||| flagNX)
      else ((2 ^ n - r.1) % 2 ^ n, if r.2 then flagNX else 0)
    else
      if 2 ^ (n - 1) ≤ r.1 then (2 ^ (n - 1) - 1, flagOF ||| flagNX)
      else (r.1, if r.2 then flagNX else 0)

/-- A signed integer of n bits as a value. -/
def intVal (n v : Nat) : FVal :=
  if 2 ^ (n - 1) ≤ v % 2 ^ n then .fin true (2 ^ n - v % 2 ^ n) 0 else .fin false (v % 2 ^ n) 0

/-- An integer of n bits as a signed number. -/
def signedOf (n v : Nat) : Int := if 2 ^ (n - 1) ≤ v % 2 ^ n then (v % 2 ^ n : Int) - 2 ^ n else (v % 2 ^ n : Int)

/-- A saturating narrowing of an integer to n bits (R193, R202). -/
def satInt (n : Nat) (v : Int) : FRes :=
  if v < -(2 ^ (n - 1)) then (2 ^ (n - 1), flagOF ||| flagNX)
  else if 2 ^ (n - 1) - 1 < v then (2 ^ (n - 1) - 1, flagOF ||| flagNX)
  else ((v % 2 ^ n).toNat, 0)

/-! ### Exact values -/

def FVal.isNaN : FVal → Bool
  | .nan _ => true
  | _ => false
def FVal.isSignalling : FVal → Bool
  | .nan s => s
  | _ => false
def FVal.isInf : FVal → Bool
  | .inf _ => true
  | _ => false
def FVal.isZero : FVal → Bool
  | .fin _ m _ => m == 0
  | _ => false
def FVal.neg : FVal → Bool
  | .nan _ => false
  | .inf n => n
  | .fin n _ _ => n
def FVal.negate : FVal → FVal
  | .nan s => .nan s
  | .inf n => .inf (!n)
  | .fin n m e => .fin (!n) m e
/-- A natural number as an exact value. -/
def FVal.ofNat (k : Nat) : FVal := .fin false k 0
def FVal.one : FVal := .fin false 1 0

/-- A finite value as an integer multiple of 2^l, for l at or below its exponent. -/
def scaled (neg : Bool) (m : Nat) (e l : Int) : Int :=
  let v : Int := (m * 2 ^ (e - l).toNat : Nat)
  if neg then -v else v

/-- An exact product, and whether it raises NV (0 × ∞, a signalling NaN). -/
def FVal.mul (a b : FVal) : FVal × Bool :=
  match a, b with
  | .nan s, .nan t => (.nan false, s || t)
  | .nan s, _ => (.nan false, s)
  | _, .nan t => (.nan false, t)
  | .inf n, .inf k => (.inf (n != k), false)
  | .inf n, .fin k m _ => if m = 0 then (.nan false, true) else (.inf (n != k), false)
  | .fin n m _, .inf k => if m = 0 then (.nan false, true) else (.inf (n != k), false)
  | .fin n m e, .fin k p g => (.fin (n != k) (m * p) (e + g), false)

/-- An exact sum of terms, and whether it raises NV (∞ − ∞, a signalling NaN). The sign of an exact zero is that of R189. -/
def sumExact (mode : BitVec 2) (l : List FVal) : FVal × Bool :=
  let sig := l.any FVal.isSignalling
  if l.any FVal.isNaN then (.nan false, sig)
  else
    let pInf := l.any (fun v => v == .inf false)
    let nInf := l.any (fun v => v == .inf true)
    if pInf && nInf then (.nan false, true)
    else if pInf then (.inf false, false)
    else if nInf then (.inf true, false)
    else
      let low : Int := l.foldl (fun acc v => match v with
        | .fin _ m e => if m = 0 then acc else min acc e
        | _ => acc) 100000
      let total : Int := l.foldl (fun acc v => match v with
        | .fin n m e => if m = 0 then acc else acc + scaled n m e low
        | _ => acc) 0
      if total = 0 then
        let allNeg := l.all FVal.neg
        let allPos := l.all (fun v => !v.neg)
        (.fin (allNeg || (!allPos && mode == rdn)) 0 0, false)
      else (.fin (decide (total < 0)) total.natAbs low, false)

/-- Rounds an exact result in a format as an arithmetic operation (R188, R190); NV gives the canonical NaN alone (R192). -/
def Fmt.finish (F : Fmt) (mode : BitVec 2) (r : FVal × Bool) : FRes :=
  if r.2 then (F.canonicalNaN, flagNV)
  else match r.1 with
    | .nan _ => (F.canonicalNaN, 0)
    | .inf n => (F.infinity n, 0)
    | .fin n m e => F.arith mode n m e false

/-- a + b (R188 to R192). -/
def Fmt.add (F : Fmt) (mode : BitVec 2) (a b : Nat) : FRes := F.finish mode (sumExact mode [F.decode a, F.decode b])
/-- a − b. -/
def Fmt.sub (F : Fmt) (mode : BitVec 2) (a b : Nat) : FRes :=
  F.finish mode (sumExact mode [F.decode a, (F.decode b).negate])
/-- a × b. -/
def Fmt.mul (F : Fmt) (mode : BitVec 2) (a b : Nat) : FRes := F.finish mode ((F.decode a).mul (F.decode b))

/-- The sum of products rounded once (R196): each term is a list of factors. A product that raises NV gives NaN with NV,
even beside a quiet NaN. -/
def sumOfProducts (mode : BitVec 2) (terms : List (List FVal)) : FVal × Bool :=
  let prods := terms.map (fun fs => fs.foldl (fun (acc : FVal × Bool) v =>
    let r := acc.1.mul v
    (r.1, acc.2 || r.2)) (FVal.one, false))
  let r := sumExact mode (prods.map (·.1))
  (r.1, r.2 || prods.any (·.2))

/-- a × b + c with the product and the addend negated as asked (R196). -/
def Fmt.fma (F : Fmt) (mode : BitVec 2) (negProduct negAddend : Bool) (a b c : Nat) : FRes :=
  let x := F.decode a
  let y := F.decode c
  F.finish mode (sumOfProducts mode
    [[if negProduct then x.negate else x, F.decode b], [if negAddend then y.negate else y]])

/-- a / b (R192, R195). -/
def Fmt.div (F : Fmt) (mode : BitVec 2) (a b : Nat) : FRes :=
  let x := F.decode a
  let y := F.decode b
  let neg := x.neg != y.neg
  if x.isNaN || y.isNaN then (F.canonicalNaN, if x.isSignalling || y.isSignalling then flagNV else 0)
  else match x, y with
    | .inf _, .inf _ => (F.canonicalNaN, flagNV)
    | .inf _, _ => (F.infinity neg, 0)
    | _, .inf _ => (F.sign neg 0, 0)
    | .fin _ m e, .fin _ p g =>
      if p = 0 then (if m = 0 then (F.canonicalNaN, flagNV) else (F.infinity neg, flagDZ))
      else if m = 0 then (F.sign neg 0, 0)
      else
        let k := 80 + bitLen p
        let n := m * 2 ^ k
        F.arith mode neg (n / p) (e - g - (k : Int)) (n % p != 0)
    | _, _ => (F.canonicalNaN, 0)

/-- The integer square root by bits from bit b − 1 down. -/
def isqrtFrom (n : Nat) : Nat → Nat → Nat
  | 0, r => r
  | b + 1, r => let t := r + 2 ^ b; isqrtFrom n b (if t * t ≤ n then t else r)
/-- The integer square root. -/
def isqrt (n : Nat) : Nat := isqrtFrom n ((bitLen n + 1) / 2) 0

/-- Square root (R195): rounded once under the mode. -/
def Fmt.sqrt (F : Fmt) (mode : BitVec 2) (a : Nat) : FRes :=
  match F.decode a with
  | .nan s => (F.canonicalNaN, if s then flagNV else 0)
  | .inf n => if n then (F.canonicalNaN, flagNV) else (F.infinity false, 0)
  | .fin n m e =>
    if m = 0 then (F.sign n 0, 0)
    else if n then (F.canonicalNaN, flagNV)
    else
      let m1 := if e % 2 = 0 then m else m * 2
      let e1 := if e % 2 = 0 then e else e - 1
      let big := m1 * 2 ^ 128
      let r := isqrt big
      F.arith mode false r (e1 / 2 - 64) (r * r != big)

/-- Reciprocal, to nearest even (R195). -/
def Fmt.rcp (F : Fmt) (a : Nat) : FRes :=
  match F.decode a with
  | .nan s => (F.canonicalNaN, if s then flagNV else 0)
  | .inf n => (F.sign n 0, 0)
  | .fin n m e =>
    if m = 0 then (F.infinity n, flagDZ)
    else
      let k := 80 + bitLen m
      F.arith rne n (2 ^ k / m) (-e - (k : Int)) (2 ^ k % m != 0)

/-- Reciprocal square root, to nearest even (R195). -/
def Fmt.rsq (F : Fmt) (a : Nat) : FRes :=
  match F.decode a with
  | .nan s => (F.canonicalNaN, if s then flagNV else 0)
  | .inf n => if n then (F.canonicalNaN, flagNV) else (F.sign false 0, 0)
  | .fin n m e =>
    if m = 0 then (F.infinity n, flagDZ)
    else if n then (F.canonicalNaN, flagNV)
    else
      let m1 := if e % 2 = 0 then m else m * 2
      let e1 := if e % 2 = 0 then e else e - 1
      let r := isqrt (2 ^ 256 / m1)
      F.arith rne false r (-(e1 / 2) - 128) (r * r * m1 != 2 ^ 256)

/-- 2^(2^−i) for i = 1, 2, …, each as a multiple of 2^−256 rounded down. -/
def exp2RootsFrom : Nat → Nat → List Nat
  | 0, _ => []
  | n + 1, r => let q := isqrt (r * 2 ^ 256); q :: exp2RootsFrom n q
/-- The first 160 of them: an FP32 operand has at most 149 fraction bits. -/
def exp2Roots : List Nat := exp2RootsFrom 160 (2 ^ 257)

/-- 2^f as a multiple of 2^−256, for f = fr / 2^160 below 1: the product of the roots at the one bits of f, each product
rounded down (log 15). -/
def exp2Frac (fr : Nat) : Nat :=
  ((List.range 160).zip exp2Roots).foldl
    (fun acc p => if fr / 2 ^ (159 - p.1) % 2 = 1 then acc * p.2 / 2 ^ 256 else acc) (2 ^ 256)

/-- EXP2, to nearest even (R195). -/
def Fmt.exp2 (F : Fmt) (a : Nat) : FRes :=
  match F.decode a with
  | .nan s => (F.canonicalNaN, if s then flagNV else 0)
  | .inf n => if n then (F.sign false 0, 0) else (F.infinity false, 0)
  | .fin n m e =>
    if m = 0 then F.arith rne false 1 0 false
    else if 12 ≤ e + (bitLen m : Int) then
      if n then F.arith rne false 1 (-8192) true else F.arith rne false 1 8192 false
    else
      let v : Int := if 0 ≤ e + 160 then scaled n m e (-160) else 0
      let i := v / 2 ^ 160
      let fr := (v % 2 ^ 160).toNat
      if fr = 0 then F.arith rne false 1 i false
      else F.arith rne false (exp2Frac fr) (i - 256) true

/-- The first n fraction bits of log2 y, for y a multiple of 2^−256 in [1, 2), by repeated squaring (log 15). -/
def log2Frac : Nat → Nat → Nat → Nat
  | 0, _, acc => acc
  | n + 1, y, acc =>
    let z := y * y / 2 ^ 256
    if 2 ^ 257 ≤ z then log2Frac n (z / 2) (2 * acc + 1) else log2Frac n z (2 * acc)

/-- LOG2, to nearest even (R195). -/
def Fmt.log2 (F : Fmt) (a : Nat) : FRes :=
  match F.decode a with
  | .nan s => (F.canonicalNaN, if s then flagNV else 0)
  | .inf n => if n then (F.canonicalNaN, flagNV) else (F.infinity false, 0)
  | .fin n m e =>
    if m = 0 then (F.infinity true, flagDZ)
    else if n then (F.canonicalNaN, flagNV)
    else
      let k := bitLen m - 1
      let i : Int := e + (k : Int)
      if m = 2 ^ k then F.arith rne (decide (i < 0)) i.natAbs 0 false
      else
        let v : Int := i * 2 ^ 192 + (log2Frac 192 (m * 2 ^ (256 - k)) 0 : Nat)
        if 0 ≤ v then F.arith rne false v.toNat (-192) true
        else F.arith rne true (v.natAbs - 1) (-192) true

/-! ### Comparisons -/

/-- How two numbers compare: none when one is a NaN. −0 equals +0. -/
def FVal.compare (a b : FVal) : Option Ordering :=
  match a, b with
  | .nan _, _ => none
  | _, .nan _ => none
  | .inf n, .inf k => some (if n = k then .eq else if n then .lt else .gt)
  | .inf n, _ => some (if n then .lt else .gt)
  | _, .inf k => some (if k then .gt else .lt)
  | .fin n m e, .fin k p g =>
    let l := min e g
    some (Ord.compare (scaled n m e l) (scaled k p g l))

end Sys2Proof.Machine
end

