-- ==== Sys2Proof/Machine/Slice.lean ====
section
/-!
DEFINITION. The memory slice engine: the atomic computations (R303, R304), the soft-max merge (R308),
and staged operations with their keys, records and application (R309 to R313).
-/
namespace Sys2Proof.Machine

/-- MinF and MaxF (R207): −0 is below +0; one NaN gives the other operand; a signalling NaN raises NV. -/
def Fmt.minMax (F : Fmt) (wantMax : Bool) (a b : Nat) : FRes :=
  let x := F.decode a
  let y := F.decode b
  let fl := if x.isSignalling || y.isSignalling then flagNV else 0
  if x.isNaN && y.isNaN then (F.canonicalNaN, fl)
  else if x.isNaN then (b, fl)
  else if y.isNaN then (a, fl)
  else
    let aBelow := match x.compare y with
      | some .lt => true
      | some .gt => false
      | _ => x.neg && !y.neg
    (if aBelow == wantMax then b else a, fl)

/-- The new value of an n-bit word and the flags raised (R303): `op` is op[3:0], A the old value, B and C the operands, k
the multiplicity. -/
def atomNew (op n A B C k : Nat) (frm : BitVec 2) : FRes :=
  let sa := signedOf n A
  let sb := signedOf n B
  match op with
  | 0 => ((A + k * B) % 2 ^ n, 0)
  | 1 => fp32.finish frm (sumOfProducts frm [[fp32.decode A], [FVal.ofNat k, fp32.decode B]])
  | 2 => (A &&& B, 0)
  | 3 => (A ||| B, 0)
  | 4 => (A ^^^ B, 0)
  | 5 => (if sb < sa then B else A, 0)
  | 6 => (if sa < sb then B else A, 0)
  | 7 => (min A B, 0)
  | 8 => (max A B, 0)
  | 9 => fp32.minMax false A B
  | 10 => fp32.minMax true A B
  | 11 => (B, 0)
  | 12 => (if A = B then C else A, 0)
  | 13 => ((A + B) % 2 ^ n, 0)
  | _ => fp32.add frm A B

/-- What a returning ATOM writes to X[d] (R304). -/
def atomResult (op size A : Nat) (fl : BitVec 5) : Word :=
  if op = 1 ∨ op = 9 ∨ op = 10 ∨ op = 14 then BitVec.ofNat 64 (A + fl.toNat * 2 ^ 32)
  else extend size true A

/-- An ATOM performed at its home slice (R303, R305): the state and X[d]. -/
def performAtom (s : State) (pa : Nat) (r : AtomReq) : State × Word :=
  let n := 8 * r.size
  let A := s.mem.readLE pa r.size
  let v := atomNew r.op n A (r.b.toNat % 2 ^ n) (r.c.toNat % 2 ^ n) r.mult r.frm
  (s.storePa none pa r.size v.1, atomResult r.op r.size A v.2)

/-- The physical address of a byte of a triple laid over 64-byte blocks. -/
def blockAddr (blocks : List Nat) (off : Nat) : Nat := blocks.getD (off / 64) 0 + off % 64

/-- Writes zero to the n words of 4 bytes from an offset of a triple. -/
def zeroWords (s : State) (blocks : List Nat) (off : Nat) : Nat → State
  | 0 => s
  | n + 1 => zeroWords (s.storePa none (blockAddr blocks off) 4 0) blocks (off + 4) n

/-- Writes 4-byte values from an offset of a triple. -/
def writeWords (s : State) (blocks : List Nat) (off : Nat) : List Nat → State
  | [] => s
  | v :: rest => writeWords (s.storePa none (blockAddr blocks off) 4 v) blocks (off + 4) rest

/-- The weight EXP2(Round32(a − b)) of a partial, 1 when its maximum is the new one (R308). -/
def smergeWeight (frm : BitVec 2) (a b : Nat) : FVal :=
  if (fp32.decode a).compare (fp32.decode b) = some .eq then FVal.one
  else fp32.decode (fp32.exp2 (fp32.sub frm a b).1).1

/-- The slice takes the lines of a triple for itself: every copy is recalled (R301, R308). -/
def recallBlocks (s : State) (blocks : List Nat) : State :=
  { s with dir := blocks.foldl (fun d b => recallDir d b 64) s.dir }

/-- SMERGE at the home slice (R308). -/
def performSmerge (s0 : State) (blocks : List Nat) (m' l' : Nat) (o' : List Nat) (k : Nat) (frm : BitVec 2) : State :=
  let s := recallBlocks s0 blocks
  let rd := fun off => s.mem.readLE (blockAddr blocks off) 4
  let m := rd 0
  let l := rd 4
  if m = 0xFF800000 ∧ m' = 0xFF800000 then s
  else if (fp32.decode m).isNaN || (fp32.decode m').isNaN then
    let s1 := zeroWords s blocks 8 14
    writeWords (writeWords s1 blocks 0 [0x7FC00000, 0x7FC00000]) blocks 64 (o'.map (fun _ => 0x7FC00000))
  else
    let mx := (fp32.minMax true m m').1
    let al := smergeWeight frm m mx
    let be := smergeWeight frm m' mx
    let merge := fun (x y : Nat) => (fp32.finish frm (sumOfProducts frm
      [[fp32.decode x, al], [FVal.ofNat k, fp32.decode y, be]])).1
    let os := ((List.range o'.length).zip o').map (fun p => merge (rd (64 + 4 * p.1)) p.2)
    writeWords (writeWords (zeroWords s blocks 8 14) blocks 0 [mx, merge l l']) blocks 64 os

/-! ### Staged operations -/

/-- The bytes a staged operation reserves (R312). -/
def stagedSize (op : BitVec 8) (frm : BitVec 8) : Nat :=
  if op.getLsbD 5 then 64 + 4 * (64 * ((frm.extractLsb' 2 2).toNat + 1)) else 64

/-- Lexicographic order of lists of numbers. -/
def lexLt : List Nat → List Nat → Bool
  | [], [] => false
  | [], _ => true
  | _, [] => false
  | a :: as, b :: bs => if a < b then true else if b < a then false else lexLt as bs

/-- The order of staged operations: the key, then the target, the operation byte, byte 13, the operands and the multiplicity
(R310). -/
def stagedKey (r : Staged) : List Nat :=
  [r.wid.toNat, r.seqno, r.pa, r.op.toNat, r.frm.toNat, r.b.toNat, r.c.toNat] ++ r.o.map (·.toNat) ++ [r.mult]

/-- Inserts a record in the order of R310. -/
def insertStaged (r : Staged) : List Staged → List Staged
  | [] => [r]
  | x :: rest => if lexLt (stagedKey r) (stagedKey x) then r :: x :: rest else x :: insertStaged r rest

/-- Sorts records in the order of R310. -/
def sortStaged (l : List Staged) : List Staged := l.foldl (fun acc r => insertStaged r acc) []

/-- The words of a spilled record (R312). -/
def stagedWords (r : Staged) : List Word :=
  let pair := fun (lo hi : BitVec 32) => (hi ++ lo : Word)
  let rec pairs : List (BitVec 32) → List Word
    | a :: b :: rest => pair a b :: pairs rest
    | [a] => [pair a 0]
    | [] => []
  [r.wid, BitVec.ofNat 64 (r.seqno % 2 ^ 32 + r.op.toNat * 2 ^ 32 + r.frm.toNat * 2 ^ 40), BitVec.ofNat 64 r.pa,
    BitVec.ofNat 64 (r.mult % 2 ^ 32), r.b, r.c, 0, 0] ++ pairs r.o

/-- The operand words of an SMERGE record (R312). -/
def stagedHalves (l : List Word) : List (BitVec 32) := (l.map (fun x => [x.extractLsb' 0 32, x.extractLsb' 32 32])).flatten

/-- A spilled record as it reads at completion, whatever it held when it was spilled; none when a zero field is not zero or its
operation byte names no operation (R312). The triple of an SMERGE keeps the blocks that were translated at issue while the record names
its place (R309), and lies in one piece otherwise. -/
def stagedOfWords (l : List Word) (r : Staged) : Option Staged :=
  let w := fun i => l.getD i 0
  let op : BitVec 8 := (w 1).extractLsb' 32 8
  let frm : BitVec 8 := (w 1).extractLsb' 40 8
  let smerge := op.getLsbD 5
  let opLow := (op.extractLsb' 0 4).toNat
  let isFloat := opLow = 1 ∨ opLow = 9 ∨ opLow = 10 ∨ opLow = 14
  let opOk := if smerge then op == 0x20 else op.extractLsb' 6 2 == 0 && opLow != 15 && (op.getLsbD 4 || !decide isFloat)
  let zeros := (w 1).extractLsb' 48 16 == 0 && (w 3).extractLsb' 32 32 == 0 && w 6 == 0 && w 7 == 0
    && (if smerge then frm.extractLsb' 4 4 == 0 && w 5 == 0 else frm.extractLsb' 2 6 == 0 && (opLow == 12 || w 5 == 0))
  if opOk && zeros then
    let pa := (w 2).toNat
    let n := if smerge then stagedSize op frm / 64 else 0
    some { r with wid := w 0, seqno := ((w 1).extractLsb' 0 32).toNat, op := op, frm := frm, pa := pa,
                  mult := ((w 3).extractLsb' 0 32).toNat, b := w 4, c := w 5,
                  o := stagedHalves ((l.drop 8).take (8 * (n - 1))),
                  blocks := if pa = r.pa && n = r.blocks.length then r.blocks else (List.range n).map (fun i => pa + 64 * i) }
  else none

/-- The supervisor's translation context that a launch keeps from its LAUNCH (R280, R313). -/
def launchCx (l : Launch) (die : Nat) : Cx :=
  { core := none, die := die, mode := .supervisor, asid := l.csrs.asid, ptbase := l.csrs.ptbase, privbase := 0 }

/-- The places that a staged operation reads and writes, with their sizes. -/
def Staged.targets (r : Staged) : List (Nat × Nat) :=
  if r.op.getLsbD 5 then r.blocks.map (fun b => (b, 64)) else [(r.pa, if r.op.getLsbD 4 then 4 else 8)]

/-- A staged operation is dropped, its key and its address logged (R311). -/
def dropStaged (s : State) (r : Staged) : State :=
  (s.logEvent .stagingUncorrectable 0 r.wid (BitVec.ofNat 64 r.seqno)).logEvent .stagingUncorrectable 0 (BitVec.ofNat 64 r.pa) 0

/-- Applies one staged operation (R311). -/
def applyStaged (s : State) (r : Staged) : State :=
  if r.targets.any (fun p => s.isBad p.1 p.2) then dropStaged s r
  else if r.op.getLsbD 5 then
    performSmerge s r.blocks (r.b.extractLsb' 0 32).toNat (r.b.extractLsb' 32 32).toNat (r.o.map (·.toNat)) r.mult
      (r.frm.extractLsb' 0 2)
  else
    let size := if r.op.getLsbD 4 then 4 else 8
    let n := 8 * size
    let v := atomNew (r.op.extractLsb' 0 4).toNat n (s.mem.readLE r.pa size) (r.b.toNat % 2 ^ n) (r.c.toNat % 2 ^ n)
      r.mult (r.frm.extractLsb' 0 2)
    s.storePa none r.pa size v.1

/-- The location n bytes above another. -/
def Loc.shift (l : Loc) (n : Nat) : Loc :=
  match l with
  | .dram pa => .dram (pa + n)
  | .bank k => .bank (k + n)
  | x => x

/-- The places of n words of a spilled record: those at which it was written, then the words that follow. -/
def Staged.wordsAt (r : Staged) (n : Nat) : List Loc :=
  (List.range n).map (fun i => r.places.getD i ((r.places.getLastD (.dram 0)).shift (8 * (i + 1 - r.places.length))))

/-- The words of a spilled record as they read now (R312): an SMERGE has as many as its operation byte and byte 13 say. -/
def Staged.wordsNow (s : State) (r : Staged) : List Loc :=
  let w1 : Word := BitVec.ofNat 64 (readLoc s ((r.wordsAt 2).getD 1 (.dram 0)) 8)
  r.wordsAt (stagedSize (w1.extractLsb' 32 8) (w1.extractLsb' 40 8) / 8)

/-- The words at locations, and the state after they are read. -/
def readWords (s : State) : List Loc → List Word × State
  | [] => ([], s)
  | l :: rest =>
    let q := readWords (afterRead s l) rest
    (BitVec.ofNat 64 (readLoc s l 8) :: q.1, q.2)

/-- A staged operation as it stands at completion: a spilled one is read back from the staging area; one that is not valid, or whose
bytes ECC cannot correct, is skipped and its staging address logged (R312, R313). -/
def recallStaged (s : State) (r : Staged) : State × Option Staged :=
  match r.spill with
  | none => (s, some r)
  | some ptr =>
    let places := r.wordsNow s
    if places.any (fun a => locBad s a 8) then (s.logEvent .stagingUncorrectable 0 ptr 0, none)
    else
      let q := readWords s places
      match stagedOfWords q.1 r with
      | some r' => (q.2, some r')
      | none => (q.2.logEvent .stagingSkipped 0 ptr r.wid, none)

/-- Every staged operation of a launch as it stands at completion. -/
def recallAll (s : State) (l : Launch) : State × List Staged :=
  let p := l.staged.foldl (fun (acc : State × List Staged) r =>
    let q := recallStaged acc.1 r
    (q.1, match q.2 with
      | some r' => r' :: acc.2
      | none => acc.2)) (s, [])
  (p.1, sortStaged p.2.reverse)

/-- Applies every staged operation of a launch in the order of R310 (R22, R311). -/
def applyAllStaged (s : State) (l : Launch) : State := (recallAll s l).2.foldl applyStaged (recallAll s l).1

/-- Whether a copy engine owns a line that a staged operation of a launch, or its spilled record, lies in: the application waits
(R23, R302). -/
def stagedHeld (s : State) (l : Launch) : Bool :=
  l.staged.any (fun r => r.spill.isSome && (r.wordsNow s).any (fun a => lineHeld s a 8))
    || (recallAll s l).2.any (fun r => r.targets.any (fun p => lineHeld s (.dram p.1) p.2))

/-- Reserves a staged operation's record in the budget (R312), or answers that it does not fit. -/
def reserveStaging (l : Launch) (size : Nat) : Option Launch :=
  if l.budget + size ≤ l.hdr.stagesize then some { l with budget := l.budget + size } else none

/-- Stores words at rising pointers, as a supervisor of the launch would; the first failure is its trap. -/
def storeWordsAt (s : State) (cx : Cx) (handle : Nat) (ptr : Word) : List Word → Check State
  | [] => .ok s
  | w :: rest =>
    match storeNow s cx handle none ptr 8 w.toNat with
    | .error e => .error e
    | .ok s1 => storeWordsAt s1 cx handle (ptr + 8) rest

/-- The places of n words at rising pointers, as stores of a context reach them. -/
def placesOf (s : State) (cx : Cx) (handle : Nat) (ptr : Word) (n : Nat) : List Loc :=
  (List.range n).filterMap (fun i =>
    match checkAccess s cx handle .store .scalar false (ptr + BitVec.ofNat 64 (8 * i)) 8 8 with
    | .ok a => some a.loc
    | .error _ => none)

/-- How many staged operations a slice holds on chip. -/
def stagedOnChip (s : State) (home : Nat) : Nat :=
  (s.launches.map (fun p => (p.2.staged.filter (fun x => x.spill.isNone && homeSlice s x.pa == home)).length)).foldl (· + ·) 0

/-- The slice accepts a staged operation (R312, R313): on chip while it holds fewer than 1,024, else after it has written
the record to the staging area. A failed write gives the reservation back and answers the trap. -/
def acceptStaged (s : State) (lctx : Nat) (l : Launch) (r : Staged) : Check State :=
  if stagedOnChip s (homeSlice s r.pa) < 1024 then .ok (s.putLaunch lctx { l with staged := l.staged ++ [r] })
  else
    let ptr := l.hdr.staging + BitVec.ofNat 64 l.area
    let cx := launchCx l (dieOfCore l.core)
    match storeWordsAt s cx (handleOf l.core 0) ptr (stagedWords r) with
    | .error none => .error none
    | .error (some t) => .error (some { cause := t.cause, val := ptr })
    | .ok s1 =>
      let places := placesOf s cx (handleOf l.core 0) ptr (stagedWords r).length
      .ok (s1.putLaunch lctx { l with staged := l.staged ++ [{ r with spill := some ptr, places := places }],
                                      area := l.area + stagedSize r.op r.frm })

end Sys2Proof.Machine
end

