-- ==== Sys2Proof/Machine/Task.lean ====
section
/-!
DEFINITION. The task engine's operations: mailbox delivery (R263 to R265), work identifiers (R277), the completion tree
(R278, R279), deques and pushes (R281, R282), task records (R288, R289), the join count (R291), the end of a launch (R280)
and binding a thread (R86).
-/
namespace Sys2Proof.Machine

/-! ### Mailboxes -/

/-- Whether a core's mailbox has a free entry (R263). -/
def mailFree (s : State) (core : Nat) : Bool := decide ((s.core core).mailbox.length < 32)

/-- How many entries are addressed to a slot (R265). -/
def mailCount (s : State) (handle : Nat) : Nat :=
  ((s.core (coreOfHandle handle)).mailbox.filter (fun m => m.slot == slotOfHandle handle)).length

/-- The oldest entry addressed to a slot. -/
def mailOldest (s : State) (handle : Nat) : Option Mail :=
  (s.core (coreOfHandle handle)).mailbox.find? (fun m => m.slot == slotOfHandle handle)

/-- Removes the first entry addressed to a slot. -/
def removeFirstMail (slot : Nat) : List Mail → List Mail
  | [] => []
  | m :: rest => if m.slot = slot then rest else m :: removeFirstMail slot rest

/-- The thread of a handle, bound or parked with it, that waits for a message. -/
def mailWaiter (s : State) (handle : Nat) : Option (Nat × Thread) :=
  s.threads.find? (fun p => p.2.place.handle == handle && (match p.2.wait with
    | some (.recv _) => true
    | some (.waitm _ _) => true
    | some (.wfi _ _ _) => true
    | _ => false))

/-- An event with a reason code reaches a thread that waits in WFI, which completes at the end of the cycle with the lowest code that
reached it (R133, R365). -/
def reachWfi (s : State) (t code : Nat) : State :=
  match s.thread t with
  | some th =>
    match th.wait with
    | some (.wfi d l r) => s.putThread t { th with wait := some (.wfi d l (code :: r)) }
    | _ => s
  | none => s

/-- The last message of a thread's copy request is posted: the request is no longer outstanding (R263; log 59). -/
def endCopy (s : State) (m : Mail) : State :=
  match m.copyOf with
  | some c => match s.thread c.tid with
    | some th => if c.last then s.putThread c.tid { th with copies := th.copies - 1 } else s
    | none => s
  | none => s

/-- A message enters a mailbox that has a free entry; a RECV or WAITM that waits for it completes, and a WFI at the end of the cycle
(R265, R133). -/
def deliverMail (s0 : State) (core : Nat) (m : Mail) : State :=
  let s := endCopy s0 m
  let c := s.core core
  let s1 := s.putCore core { c with mailbox := c.mailbox ++ [m] }
  let handle := handleOf core m.slot
  match mailWaiter s1 handle with
  | some (t, th) =>
    match th.wait with
    | some (.recv d) =>
      let c1 := s1.core core
      let s2 := s1.putCore core { c1 with mailbox := removeFirstMail m.slot c1.mailbox }
      match mailOldest s1 handle with
      | some o => s2.finishWait t (fun x => (x.setX d o.m0).setX (d + 1) o.m1)
      | none => s1
    | some (.waitm d _) => s1.finishWait t (fun x => x.setX d (BitVec.ofNat 64 (mailCount s1 handle)))
    | some (.wfi _ _ _) => reachWfi s1 t 0
    | _ => s1
  | none => s1

/-- A posting of the device (R258, R279): it enters the mailbox, or is held until an entry is free. -/
def postMail (s : State) (handle : Nat) (m0 m1 : Word) (copyOf : Option CopyMark) : State :=
  let core := coreOfHandle handle
  let m : Mail := { slot := slotOfHandle handle, m0 := m0, m1 := m1, copyOf := copyOf }
  if mailFree s core && (s.core core).held.isEmpty then deliverMail s core m
  else
    let c := s.core core
    s.putCore core { c with held := c.held ++ [m] }

/-- The waiting SEND to a core with the lowest handle, the order that R262 gives barriers and channels and no rule gives mailboxes (log 70). -/
def nextSender (s : State) (core : Nat) : Option (Nat × Thread) :=
  s.threads.foldl (fun (best : Option (Nat × Thread)) p =>
    match p.2.wait with
    | some (.send target _ _ _) =>
      if coreOfHandle target = core then
        match best with
        | some b => if b.2.place.handle ≤ p.2.place.handle then some b else some p
        | none => some p
      else best
    | _ => best) none

/-- While an entry is free, the waiting SENDs enqueue (R264). -/
def serviceSenders : Nat → State → Nat → State
  | 0, s, _ => s
  | n + 1, s, core =>
    if !mailFree s core then s else
    match nextSender s core with
    | some (t, th) =>
      match th.wait with
      | some (.send target m0 m1 d) =>
        serviceSenders n (deliverMail (s.finishWait t (fun x => x.setX d 0)) core
          { slot := slotOfHandle target, m0 := m0, m1 := m1, copyOf := none }) core
      | _ => s
    | none => s

/-! ### Work identifiers -/

/-- Widths and extents of the fields, least significant first. -/
def fieldsRev (h : Header) : List (Nat × Nat) := ((h.widths.zip h.extents)).reverse

/-- The work identifier of a linear index (R277): `shift` is the place of the next field. -/
def widFrom : List (Nat × Nat) → Nat → Nat → Nat
  | [], _, _ => 0
  | (w, e) :: rest, shift, k => k % e * 2 ^ shift + widFrom rest (shift + w) (k / e)
def widOfIndex (h : Header) (k : Nat) : Word := BitVec.ofNat 64 (widFrom (fieldsRev h) 0 k)

/-- The linear index of a work identifier, if it lies in the launch's space (R277, R278). -/
def indexFrom : List (Nat × Nat) → Nat → Option Nat
  | [], v => if v = 0 then some 0 else none
  | (w, e) :: rest, v =>
    if e ≤ v % 2 ^ w then none
    else (indexFrom rest (v / 2 ^ w)).map (fun k => v % 2 ^ w + e * k)
def indexOfWid (h : Header) (wid : Word) : Option Nat := indexFrom (fieldsRev h) wid.toNat

/-- How many leaves a node of level ℓ covers (R278). -/
def leavesBelow (h : Header) (level : Nat) : Nat := (h.extents.drop level).foldl (· * ·) 1

/-- The work identifier of a node: the bits of levels beyond ℓ cleared (R279). -/
def nodeWid (h : Header) (level : Nat) (wid : Word) : Word :=
  let w := (h.widths.drop level).foldl (· + ·) 0
  (wid >>> w) <<< w

/-! ### Level events -/

/-- Whether the host enabled an MSI-X vector: its table entry has been written (log 17). -/
def msixEnabled (h : HostLink) (v : Nat) : Bool := h.msix.readLE (16 * v) 16 != 0
/-- Whether a vector is masked: bit 0 of its vector control word. -/
def msixMasked (h : HostLink) (v : Nat) : Bool := h.msix.readLE (16 * v + 12) 4 % 2 == 1

/-- Sends an MSI-X vector (R366). -/
def sendMsix (s : State) (lctx v : Nat) : State :=
  if !msixEnabled s.host v then s.logEvent .vectorDropped 0 (BitVec.ofNat 64 lctx) (BitVec.ofNat 64 v)
  else if msixMasked s.host v then
    { s with host := { s.host with pending := if s.host.pending.contains v then s.host.pending else v :: s.host.pending } }
  else { s with host := { s.host with sent := v :: s.host.sent } }

/-- Posts the level event of a node that has finished (R279, R366). -/
def postLevelEvent (s : State) (lctx : Nat) (h : Header) (level : Nat) (wid : Word) : State :=
  if !(BitVec.ofNat 8 h.events).getLsbD level then s
  else if h.target.getLsbD 63 then sendMsix s lctx (h.target.extractLsb' 0 11).toNat
  else postMail s (h.target.extractLsb' 0 17).toNat (BitVec.ofNat 64 (lctx + level * 65536)) (nodeWid h level wid) none

/-- The event of a node other than the root: that of a replayable launch waits for its completing run (R382; log 60). -/
def nodeEvent (s : State) (lctx : Nat) (h : Header) (level : Nat) (wid : Word) : State :=
  if h.replay then
    match s.launch lctx with
    | some l => s.putLaunch lctx { l with events := l.events ++ [(level, wid)] }
    | none => s
  else postLevelEvent s lctx h level wid

/-- The nodes from level ℓ up to 1 on the path of a leaf that have finished post their events, each before its parent
(R278, R279). -/
def postUpward (s : State) (lctx : Nat) (l : Launch) (k : Nat) (wid : Word) : Nat → State
  | 0 => s
  | level + 1 =>
    let size := leavesBelow l.hdr (level + 1)
    let done := (l.closed.filter (fun i => i / size == k / size)).length
    if done = size then postUpward (nodeEvent s lctx l.hdr (level + 1) wid) lctx l k wid level else s

/-! ### Charges -/

/-- How many entries of a die's node table are taken (R281). -/
def nodeTableUsed (s : State) (die : Nat) : Nat :=
  (s.launches.map (fun p => (p.2.leaves.filter (fun q => q.2.2 == die)).length)).foldl (· + ·) 0

/-- Charges the leaf of a work identifier with one more task (R278, R281), or answers the refusal's cause. -/
def charge (s : State) (lctx : Nat) (wid : Word) (die : Nat) : Except Cause State :=
  if lctx = 0 then .ok s else
  match s.launch lctx with
  | none => .error .taskRecordInvalid
  | some l =>
    match indexOfWid l.hdr wid with
    | none => .error .taskRecordInvalid
    | some k =>
      if l.closed.contains k then .error .taskRecordInvalid else
      match l.leaves.find k with
      | some (n, d) => .ok (s.putLaunch lctx { l with leaves := l.leaves.put k (n + 1, d) })
      | none =>
        if 16384 ≤ nodeTableUsed s die then .error .dequeSpillFull
        else .ok (s.putLaunch lctx { l with leaves := l.leaves.put k (2, die) })

/-- Subtracts one from the leaf of a work identifier (R278): a leaf at 0 closes, its node table entry is freed, and the
nodes it finishes post their events. The root's finish is recorded with the core of this retirement; the launch then
completes (R280). -/
def uncharge (s : State) (lctx : Nat) (wid : Word) (core : Nat) : State :=
  if lctx = 0 then s else
  match s.launch lctx with
  | none => s
  | some l =>
    match indexOfWid l.hdr wid with
    | none => s
    | some k =>
      if l.closed.contains k then s else
      match l.leaves.find k with
      | some (n + 2, d) => s.putLaunch lctx { l with leaves := l.leaves.put k (n + 1, d) }
      | _ =>
        let l1 := { l with leaves := l.leaves.drop k, closed := k :: l.closed }
        let l2 := if l1.closed.length = l.total then { l1 with done := true, lastCore := core } else l1
        postUpward (s.putLaunch lctx l2) lctx l2 k wid l.hdr.extents.length

/-- A thread has ended: its leaf loses one when the issues of the cycle are over, so that every push of the cycle is charged first
(R292, R298). -/
def endLeaf (s : State) (lctx : Nat) (wid : Word) (core : Nat) : State :=
  if lctx = 0 then s else { s with ended := s.ended ++ [{ lctx := lctx, wid := wid, core := core }] }

/-- The leaves of the threads that have ended in this cycle lose one each, in the order in which they ended (R278, R298). -/
def closeLeaves (s : State) : State :=
  s.ended.foldl (fun st e => uncharge st e.lctx e.wid e.core) { s with ended := [] }

/-! ### Serving -/

/-- Whether a core keeps a context that it serves (R285): a thread of it is bound, parked or saved on the core, or its deque holds a record
of it. -/
def contextUsed (s : State) (core lctx : Nat) : Bool :=
  (s.core core).deque.any (fun e => e.lctx == lctx) || s.threads.any (fun p => p.2.core == core && p.2.lctx.toNat == lctx
    && (match p.2.place with
      | .out _ _ => false
      | .swapped _ _ _ _ => false
      | _ => true))

/-- A core drops the contexts that it no longer uses (R285). Nothing looks at the contexts of a core before it has dropped those. -/
def dropContexts (s : State) (core : Nat) : State :=
  let c := s.core core
  if c.served.all (fun x => contextUsed s core x.lctx) then s
  else s.putCore core { c with served := c.served.filter (fun x => contextUsed s core x.lctx) }

/-- Whether a core serves a context or can take it (R285). -/
def servesOrCan (s : State) (core lctx : Nat) : Bool :=
  let live := (s.core core).served.filter (fun x => contextUsed s core x.lctx)
  live.any (fun x => x.lctx == lctx) || decide (live.length < 4)

/-- A core takes a context into its lowest free core-local index, with deficit 0 and the context CSRs that its launch keeps
(R95, R285), also where it has served that context before (log 72). -/
def takeContext (s0 : State) (core lctx : Nat) : State :=
  let s := dropContexts s0 core
  let c := s.core core
  if c.served.any (fun x => x.lctx == lctx) || decide (4 ≤ c.served.length) then s
  else
    let idx := ((List.range 4).find? (fun i => !c.served.any (fun x => x.idx == i))).getD 0
    let csrs := ((s.launch lctx).map (·.csrs)).getD CtxCsrs.reset
    s.putCore core { c with served := c.served ++ [{ lctx := lctx, idx := idx, csrs := csrs, deficit := 0, starved := 0 }] }

/-! ### Deques -/

/-- How many records a core's deque holds at most: 64 on chip and 1,024 in its spill region (R282). -/
def dequeCapacity (s : State) (core : Nat) : Nat := if (s.core core).deqspill = 0 then 64 else 1088

/-- The eight words of a deque record's copy (R288): those of the record that was pushed, with the entry, the argument, the work identifier
or first index, the kind, priority, multiplicity and context, and the end of a range, as the engine holds them. -/
def DequeEntry.words (e : DequeEntry) : List Word :=
  let old := fun i => e.record.getD i 0
  let kind := match e.kind with
    | .task => (old 4).extractLsb' 32 4
    | .range _ _ => 2
    | .thunk _ _ _ _ => 3
  let range := match e.kind with
    | .range lo hi => (BitVec.ofNat 64 lo, BitVec.ofNat 64 hi)
    | .task => (e.wid, old 6)
    | .thunk _ _ _ _ => (old 2, old 6)
  [e.entry, e.arg, range.1, old 3, ((old 4).extractLsb' 40 24 ++ BitVec.ofNat 4 e.prio ++ kind ++ (old 4).extractLsb' 0 32 : BitVec 64),
    BitVec.ofNat 64 (e.mult % 2 ^ 32 + e.lctx % 2 ^ 16 * 2 ^ 32), range.2, 0]

/-- An entry as its copy in the spill region reads. What a copy does not hold, the engine keeps: x11 and what the record of a thunk belongs to
(R288; log 56). -/
def DequeEntry.ofWords (e : DequeEntry) (l : List Word) : DequeEntry :=
  let w := fun i => l.getD i 0
  let e1 := { e with entry := w 0, arg := w 1, prio := ((w 4).extractLsb' 36 4).toNat, mult := ((w 5).extractLsb' 0 32).toNat,
                     lctx := ((w 5).extractLsb' 32 16).toNat, record := l, spill := none }
  match e.kind with
  | .task => { e1 with wid := w 2, widself := w 2 }
  | .range _ _ => { e1 with kind := .range (w 2).toNat (w 6).toNat }
  | .thunk _ _ _ _ => e1

/-- The physical addresses of a core's spill region, and whether a record of its deque is there (R282). -/
def freeSpillRecord (c : Core) : Option Nat :=
  if c.deqspill = 0 then none
  else ((List.range 1024).map (fun k => c.deqspill.toNat + 64 * k)).find? (fun a =>
    decide (a + 64 ≤ dramEnd) && !(c.deque.any (fun e => e.spill == some a)))

/-- Whether a record that stands in the spill region can be read: not in a line that a copy engine owns (R23). -/
def DequeEntry.readable (s : State) (e : DequeEntry) : Bool :=
  match e.spill with
  | some a => !(Late.words a (List.replicate 8 0)).waits s
  | none => true

/-- An entry as it is taken from a deque: a spilled one is read from the spill region. -/
def DequeEntry.taken (s : State) (e : DequeEntry) : DequeEntry :=
  match e.spill with
  | some a => e.ofWords ((List.range 8).map (fun i => BitVec.ofNat 64 (s.mem.readLE (a + 8 * i) 8)))
  | none => e

/-- One entry of a deque takes its place (R282): among the bottom 64 it is on chip, read back from the spill region; above them it is in the
spill region, at the first place that is free (log 56). -/
def settleEntry (s : State) (core i : Nat) : State :=
  let c := s.core core
  match c.deque[i]? with
  | none => s
  | some e =>
    if i < 64 then
      if e.spill.isSome && e.readable s then s.putCore core { c with deque := c.deque.set i (e.taken s) } else s
    else
      match e.spill, freeSpillRecord c with
      | none, some a => writeLater (s.putCore core { c with deque := c.deque.set i { e with spill := some a } }) a e.words
      | _, _ => s

/-- The entries of a core's deque take their places. -/
def settleDeque (s : State) (core : Nat) : State :=
  let c := s.core core
  if c.deque.length ≤ 64 && c.deque.all (fun e => e.spill.isNone) then s
  else (List.range c.deque.length).foldl (fun st i => settleEntry st core i) s

/-- Pushes an entry at the bottom of a core's deque (R282); the list runs from the bottom to the top. -/
def pushDeque (s0 : State) (core : Nat) (e : DequeEntry) : Except Cause State :=
  if dequeCapacity s0 core ≤ (s0.core core).deque.length then .error .dequeSpillFull
  else
    let s := dropContexts s0 core
    let c := s.core core
    .ok (settleDeque (s.putCore core { c with deque := e :: c.deque }) core)

/-- Charges a record's leaf and pushes it (R290). -/
def chargeAndPush (s : State) (die core : Nat) (e : DequeEntry) : Except Cause State :=
  match charge s e.lctx e.widself die with
  | .error c => .error c
  | .ok s1 => pushDeque s1 core e

/-! ### Task records -/

/-- The eight words of a task record, read as loads; not aligned to 64 traps LOAD_MISALIGNED (R289). -/
def readRecord (s : State) (cx : Cx) (handle : Nat) (ptr : Word) : Check (List Word × State) :=
  if ptr.toNat % 64 ≠ 0 then
    match spaceOf cx (clusterOfCore (coreOfHandle handle)) .load false ptr with
    | .error t => .error (some t)
    | .ok _ => trapOf .loadMisaligned ptr
  else loadWords s cx handle ptr 8

/-- The fields of a record (R288). -/
def recWord (l : List Word) (off : Nat) : Word := l.getD (off / 8) 0
def recEntry (l : List Word) : Word := recWord l 0
def recArg (l : List Word) : Word := recWord l 8
def recWid (l : List Word) : Word := recWord l 16
def recJoin (l : List Word) : Nat := ((recWord l 32).extractLsb' 0 32).toNat
def recFlags (l : List Word) : BitVec 32 := (recWord l 32).extractLsb' 32 32
def recKind (l : List Word) : Nat := ((recFlags l).extractLsb' 0 4).toNat
def recPrio (l : List Word) : Nat := ((recFlags l).extractLsb' 4 4).toNat
def recPlace (l : List Word) : Nat := ((recFlags l).extractLsb' 8 2).toNat
def recMult (l : List Word) : Nat := ((recWord l 40).extractLsb' 0 32).toNat
def recLctx (l : List Word) : Nat := ((recWord l 40).extractLsb' 32 16).toNat
/-- A multiplicity field of 0 counts as 1 (R290). -/
def multField (n : Nat) : Nat := if n = 0 then 1 else n

/-- The checks of R289 that every record shares. -/
def recordShared (l : List Word) : Bool :=
  (recEntry l).toNat % 4 == 0 && (recFlags l).extractLsb' 10 22 == 0 && recWord l 56 == 0 && recPlace l == 0
    && (recWord l 40).extractLsb' 48 16 == 0

/-- A record of SPAWN or SPAWNX is valid (R289). -/
def spawnRecordOk (l : List Word) (lctx : Nat) : Bool :=
  recordShared l && (recKind l == 0 || recKind l == 1) && (recLctx l == 0 || recLctx l == lctx)

/-- A record of CONT or RETIRE is valid (R289): kind 1, and its context field names a live context or is 0. -/
def contRecordOk (s : State) (l : List Word) : Bool :=
  recordShared l && recKind l == 1 && (recLctx l == 0 || (s.launch (recLctx l)).isSome)

/-- The deque entry of a record. -/
def entryOf (l : List Word) (ptr : Word) (mult lctx : Nat) : DequeEntry :=
  { kind := .task, entry := recEntry l, arg := recArg l, x11 := ptr, wid := recWid l,
    widself := recWid l, prio := recPrio l, mult := mult,
    lctx := lctx, record := l }

/-- The issuer's part of a CONT: who translates, where a push goes, and the context that a field of 0 names. -/
structure ContBy where
  cx     : Cx
  handle : Nat
  core   : Nat
  lctx   : Nat
  deriving DecidableEq, Repr

/-- CONT (R291): the state and the new count, or the trap. -/
def contOp (s : State) (by_ : ContBy) (ptr : Word) (v : Int) : Check (State × Nat) :=
  match readRecord s by_.cx by_.handle ptr with
  | .error e => .error e
  | .ok (l, s1) =>
    if !contRecordOk s l then trapOf .taskRecordInvalid ptr
    else if v = 0 then
      if 2 ^ 31 - 1 < recJoin l then trapOf .taskRecordInvalid ptr else .ok (s1, recJoin l)
    else
      match checkAccess s1 by_.cx by_.handle .store .scalar false (ptr + 32) 4 4 with
      | .error e => .error e
      | .ok a =>
        if lineHeld s1 a.loc 4 then stall else
        let s2 := touchAcc s1 by_.cx.core .store a
        let c : Int := recJoin l + v
        if c < 0 then trapOf .joinUnderflow ptr
        else if 2 ^ 31 - 1 < c then trapOf .taskRecordInvalid ptr
        else
          let s3 := writeLoc s2 none a.loc 4 c.toNat
          if c = 0 then
            let lctx := if recLctx l = 0 then by_.lctx else recLctx l
            match chargeAndPush s3 (dieOfCore by_.core) by_.core (entryOf (l.set 4 (recWord l 32 &&& 0xFFFFFFFF00000000)) ptr (multField (recMult l)) lctx) with
            | .error cause => trapOf cause ptr
            | .ok s4 => .ok (s4, 0)
          else .ok (s3, c.toNat)

/-! ### Completion of a launch -/

/-- Decrements one dependant as a CONT of −1 (R280 step 4). Nothing traps: a condition under which CONT would trap leaves
the count and is logged. A PRIVATE, CLUSTER or PEER pointer is formed with PRIVBASE 0 and the cluster and die of the core that executed
LAUNCH, of which the spec says nothing (log 61). A context field of 0 names the number of that thread's context: the launch that has it now,
should its own have ended (log 71). -/
def dependant (s : State) (l : Launch) (core : Nat) (ptr : Word) : State :=
  if ptr = 0 then s else
  let by_ : ContBy := { cx := launchCx l (dieOfCore l.core), handle := handleOf l.core 0, core := core, lctx := l.issuer }
  match contOp s by_ ptr (-1) with
  | .ok r => r.1
  | .error (some t) => s.logEvent (.dependant t.cause) 0 ptr 0
  | .error none => s

/-- Whether a dependant's record lies in a line that a copy engine holds: the completion waits (R23). -/
def dependantHeld (s : State) (l : Launch) (ptr : Word) : Bool :=
  if ptr = 0 then false else
  let by_ : ContBy := { cx := launchCx l (dieOfCore l.core), handle := handleOf l.core 0, core := l.core, lctx := l.issuer }
  match contOp s by_ ptr (-1) with
  | .error none => true
  | _ => false

/-- Whether the completion of a launch waits for a copy engine: one owns a line of a staged operation or of a dependant's record (R23,
R302). -/
def completionHeld (s : State) (l : Launch) : Bool :=
  stagedHeld s l || dependantHeld s l l.hdr.dep0 || dependantHeld s l l.hdr.dep1

/-- The completion of a launch, by stage 5 of R16 (R280). -/
def completeLaunch (s : State) (lctx core : Nat) : State :=
  match s.launch lctx with
  | none => s
  | some l =>
    let s1 := applyAllStaged s l
    let s2 := l.events.foldl (fun st e => postLevelEvent st lctx l.hdr e.1 e.2) s1
    let s3 := postLevelEvent s2 lctx l.hdr 0 0
    let s4 := dependant s3 l core l.hdr.dep0
    let s5 := dependant s4 l core l.hdr.dep1
    { s5 with launches := s5.launches.drop lctx,
              helben := { s5.helben with journal := s5.helben.journal.filter (fun j => j.lctx != lctx) } }

/-! ### Binding -/

/-- Binds an entry in an EMPTY slot (R86, R283, R290, R295): the thread becomes READY 8 cycles after the boundary. -/
def bindEntry (s : State) (core slot : Nat) (e : DequeEntry) : State :=
  let t := s.nextTid
  let th0 := Thread.reset (.slot (handleOf core slot)) s.seq s.cycle
  let th1 := { th0 with pc := e.entry, mult := BitVec.ofNat 32 e.mult, wid := e.wid, widself := e.widself,
                        lctx := BitVec.ofNat 16 e.lctx, lastIssue := some s.cycle }
  let th2 := (th1.setX 10 e.arg).setX 11 e.x11
  let s1 := { s with nextTid := t + 1, seq := s.seq + 1 }
  match e.kind with
  | .thunk pa ptr serial _ =>
    let own := ((s.evals.find pa).map (·.serial)) == some serial
    s1.putThread t { th2 with cell := ptr, evalOf := if own then some pa else none }
  | _ => s1.putThread t th2

end Sys2Proof.Machine
end

