-- ==== Sys2Proof/Machine/Cells.lean ====
section
/-!
DEFINITION. Suspension cells: starting an evaluation (R320 to R322), waiting (R323, R324), self-dependence (R326), and the
end of an evaluation (R325, R327, R333).
-/
namespace Sys2Proof.Machine

/-- The cell's address of an access: its pointer with bits [2:0] cleared (R319). -/
def cellAddr (ptr : Word) : Word := ptr &&& ~~~ 7

/-- Walks waits-on from a cell for up to n steps, looking for the cell e (R326). -/
def waitsReach (evals : SMap Eval) (e : Nat) : Nat → Nat → Bool
  | 0, _ => false
  | n + 1, c =>
    match (evals.find c).bind (·.waitsOn) with
    | some c' => c' == e || waitsReach evals e n c'
    | none => false

/-- A load of an EVALUATING cell c by a thread that evaluates e depends on itself (R326). -/
def selfDependent (s : State) (th : Thread) (c : Nat) : Bool :=
  match th.evalOf with
  | some e => e == c || waitsReach s.evals e 8 c
  | none => false

/-- How many evaluation and waiter entries a slice holds, its region included (R323). -/
def sliceEntries (s : State) (slice : Nat) : Nat :=
  (s.evals.map (fun p => if homeSlice s p.1 = slice then 1 + p.2.waiters.length else 0)).foldl (· + ·) 0

/-- Whether a slice accepts an access that needs n more entries (R323). -/
def sliceHasRoom (s : State) (pa n : Nat) : Bool := decide (sliceEntries s (homeSlice s pa) + n ≤ 4096 + 65536)

/-- An instruction that issued goes back to its PC to wait; what follows it stays where it was to go on (R324). -/
def Thread.backToWait (th : Thread) (w : Wait) : Thread :=
  match th.head with
  | some h => { th with pc := h.pc, redo := if h.next = h.pc + 4 then none else some h.next, head := none, window := none, wait := some w }
  | none => { th with wait := some w }

/-- A thread joins a cell's waiter list and parks with park kind 3 (R324). -/
def waitOnCell (s : State) (t : Nat) (pa : Nat) (ptr : Word) (use : CellUse) : State :=
  match s.thread t, s.evals.find pa with
  | some th, some ev =>
    let e1 := s.evals.put pa { ev with waiters := ev.waiters ++ [t] }
    let e2 := match th.evalOf with
      | some e => match e1.find e with
        | some x => e1.put e { x with waitsOn := some pa }
        | none => e1
      | none => e1
    ({ s with evals := e2 }.putThread t (th.backToWait (.cell pa ptr use))).park t
  | _, _ => s

/-- The record of a thunk is valid (R320). -/
def thunkRecordOk (l : List Word) : Bool :=
  (recEntry l).toNat % 4 == 0 && recKind l == 3 && decide (recPlace l ≤ 2) && (recFlags l).extractLsb' 10 22 == 0
    && recLctx l == 0 && (recWord l 40).extractLsb' 48 16 == 0 && recWord l 56 == 0
    && (if recPlace l = 2 then
          (recWord l 48).extractLsb' 0 4 == 0 && (recWord l 48).extractLsb' 17 47 == 0
            && (coreOfCsr ((recWord l 48).extractLsb' 4 13).toNat).isSome
        else recWord l 48 == 0)

/-- Whether a core's die is in the diemask of a launch; context 0 has none. -/
def dieAllowed (s : State) (lctx core : Nat) : Bool :=
  match s.launch lctx with
  | some l => l.hdr.diemask.getLsbD (dieOfCore core)
  | none => true

/-- The home core of a cell (R322). -/
def homeCore (s : State) (pa : Nat) : Nat :=
  let g := homeSlice s pa
  g / 128 * 1152 + g % 128 % 36 * 32 + g % 128 / 36

/-- The core whose deque takes a thunk, and whether it is placed as LOADER (R322). -/
def thunkCore (s : State) (th : Thread) (l : List Word) (pa : Nat) : Nat × Bool :=
  let me := th.core
  let want := match recPlace l with
    | 1 => some (homeCore s pa)
    | 2 => coreOfCsr ((recWord l 48).extractLsb' 4 13).toNat
    | _ => none
  match want with
  | none => (me, true)
  | some c =>
    let usable := (s.cluster (clusterOfCore c)).partId == (s.cluster (clusterOfCore me)).partId && !(s.core c).retired
      && !(s.cluster (clusterOfCore c)).retired && dieAllowed s th.lctx.toNat c && servesOrCan s c th.lctx.toNat
    if usable then (c, false) else (me, true)

/-- Whether one of n words at rising pointers is a word of an L page whose tag is not VALUE: no load of a thunk's record acts on it
(R321; log 36). -/
def wordsTagged (s : State) (cx : Cx) (handle : Nat) (ptr : Word) (n : Nat) : Bool :=
  (List.range n).any (fun i =>
    match checkAccess s cx handle .load .scalar false (ptr + BitVec.ofNat 64 (8 * i)) 8 8 with
    | .ok a => match a.loc with
      | .dram pa => a.lpage && s.tag pa != 0
      | _ => false
    | .error _ => false)

/-- A load that finds SUSPENDED starts the evaluation and parks (R321): the thunk is pushed, the cell becomes EVALUATING.
The trap is THUNK_INVALID at the cell, or the refused push's cause at the thunk pointer. -/
def startEvaluation (s : State) (t : Nat) (pa : Nat) (ptr : Word) (use : CellUse) : Check State :=
  match s.thread t with
  | none => .ok s
  | some th =>
    let cell := cellAddr ptr
    let p : Word := BitVec.ofNat 64 (s.mem.readLE pa 8)
    if !sliceHasRoom s pa 2 then stall
    else if p.extractLsb' 60 4 ≠ 0 ∨ p.extractLsb' 52 4 ≠ 0 ∨ p.toNat % 64 ≠ 0 then trapOf .thunkInvalid cell
    else
      match loadWords s (cxOf s th) th.place.handle p 8 with
      | .error none => stall
      | .error (some _) => trapOf .thunkInvalid cell
      | .ok (l, s1) =>
        if !thunkRecordOk l || wordsTagged s1 (cxOf s th) th.place.handle p 8 then trapOf .thunkInvalid cell else
        let where_ := thunkCore s1 th l pa
        let keep : Keep := if !where_.2 then .no
          else if canSave s1 th.core then .slot (slotOfHandle th.place.handle) else .first
        let e : DequeEntry :=
          { kind := .thunk pa cell s1.seq keep, entry := recEntry l, arg := recArg l, x11 := p, wid := th.wid,
            widself := th.widself, prio := recPrio l, mult := 1, lctx := th.lctx.toNat, record := l }
        match chargeAndPush s1 (dieOfCore th.core) where_.1 e with
        | .error c => trapOf c p
        | .ok s2 =>
          let s3 := { s2.setTag pa 2 with evals := s2.evals.put pa { serial := s1.seq, waitsOn := none, waiters := [] },
                                          seq := s1.seq + 1 }
          .ok (waitOnCell s3 t pa ptr use)

/-- What an access does that meets a cell's tag as a load (R319, R329): `none` to go on, the state in which it waits, or its
trap. -/
def meetTag (s : State) (t : Nat) (pa : Nat) (ptr : Word) (use : CellUse) : Check (Option State) :=
  match s.thread t with
  | none => .ok none
  | some th =>
    let cell := pa / 8 * 8
    if remoteTagged s (.dram pa) true ptr then trapOf .thunkInvalid ptr else
    match (s.tag pa).toNat with
    | 0 => .ok none
    | 1 => match startEvaluation s t cell ptr use with
      | .ok s' => .ok (some s')
      | .error e => .error e
    | 2 =>
      if !sliceHasRoom s cell 1 then stall
      else if selfDependent s th cell then trapOf .selfDependence (cellAddr ptr)
      else .ok (some (waitOnCell s t cell ptr use))
    | _ => trapOf .suspensionFailed (cellAddr ptr)

/-- How n loads of 8 bytes at rising pointers meet the tags of their words on L pages (R319, R261, R131): none when all are VALUE. A word in a
line that a copy engine owns waits before its tag is met (R23). -/
def loadTags (s : State) (th : Thread) (ptr : Word) : Nat → Check (Option State)
  | 0 => .ok none
  | n + 1 =>
    match checkAccess s (cxOf s th) th.place.handle .load .scalar false ptr 8 8 with
    | .error e => .error e
    | .ok a =>
      if lineHeld s a.loc 8 then stall else
      match (match a.loc with
        | .dram pa => if a.lpage && !locBad s a.loc 8 then meetTag s s.cur pa ptr .again else .ok none
        | _ => .ok none) with
      | .ok none => loadTags s th (ptr + 8) n
      | r => r

/-- One waiter of a resolved cell (R325): a scalar load or an ATOM is performed and its instruction retires; anything else
is woken to be performed again. -/
def wakeWaiter (s : State) (pa t : Nat) : State :=
  match s.thread t with
  | none => s
  | some th =>
    let s1 := s.clearWaitsOn t
    match th.wait with
    | some (.cell _ _ (.load d off size sext)) =>
      s1.finishWait t (fun x => x.setX d (extend size sext (s1.mem.readLE (pa + off) size)))
    | some (.cell _ _ (.atom r)) =>
      let a := match r.loc with
        | .dram x => x
        | _ => pa
      let q := performAtom s1 a r
      q.1.finishWait t (fun x => x.setX r.d q.2)
    | _ => s1.wakeWith t true id

/-- A RESOLVE accepted at a cell (R325, R333): its word, VALUE, and every waiter in list order. -/
def resolveCell (s : State) (pa : Nat) (v : Word) : State :=
  let s1 := s.storePa none pa 8 v.toNat
  match s.evals.find pa with
  | some ev =>
    let s2 := { s1 with evals := s1.evals.drop pa,
                        threads := s1.threads.map (fun p =>
                          if p.2.evalOf == some pa then (p.1, { p.2 with evalOf := none }) else p) }
    ev.waiters.foldl (fun st t => wakeWaiter st pa t) s2
  | none => s1

/-- A waiter leaves its cell: its entry is removed and its waits-on cleared (R335). -/
def leaveCell (s : State) (t pa : Nat) : State :=
  let s1 := s.clearWaitsOn t
  match s1.evals.find pa with
  | some ev => { s1 with evals := s1.evals.put pa { ev with waiters := ev.waiters.filter (· != t) } }
  | none => s1

end Sys2Proof.Machine
end

