-- ==== Sys2Proof/Machine/Fetch.lean ====
section
/-!
DEFINITION. Fetching a thread's next word (R45, R64 order 1, R128), which words are eligible as shadows and which are
hazards (R53 to R55), and whether a thread is READY (R87).
-/
namespace Sys2Proof.Machine

/-- A fetched word: the word and its translation. -/
structure Fetched where
  word : BitVec 32
  hit  : Hit
  deriving DecidableEq, Repr

/-- The 32 bytes of a line of DRAM. -/
def lineOf (s : State) (line : Nat) : BitVec 256 := BitVec.ofNat 256 (s.mem.readLE (line * 32) 32)

/-- Whether an address is a valid fetch address (R45). -/
def fetchAddressOk (pc : Word) : Bool :=
  pc.extractLsb' 60 4 == 0 && pc.extractLsb' 52 4 == 0 && decide ((pc.extractLsb' 56 4).toNat ≤ 3)

/-- The fetch of the word at a thread's PC: order 1 of R64. A line in the L1 instruction cache is used as it stands, and
memory otherwise (R128), once no copy engine owns the line (R23). -/
def fetch (s : State) (th : Thread) : Check Fetched :=
  let pc := th.pc
  if pc.toNat % 4 ≠ 0 then trapOf .misalignedFetch pc
  else if !fetchAddressOk pc then trapOf .fetchFault pc
  else
    let va := (pc.extractLsb' 0 52).toNat
    match translate s (cxOf s th) .fetch va pc with
    | .error e => .error e
    | .ok h =>
      let pa := h.entry.pa va
      match (s.core th.core).icache.find (pa / 32) with
      | some line => .ok { word := line.extractLsb' (pa % 32 * 8) 32, hit := h }
      | none =>
        if ownedAt s true pa 4 then stall
        else if s.isBad pa 4 then trapOf .instructionUncorrectable pc
        else .ok { word := BitVec.ofNat 32 (s.mem.readLE pa 4), hit := h }

/-- The major of a word. -/
def majorOf (w : BitVec 32) : Nat := (w.extractLsb' 0 7).toNat

/-- The first two conditions of R53 for a word that decodes: short-class, and not BCC, CALL, JMPR, a CSR-group instruction,
MCFG or MFLG (R59). -/
def shadowClass (w : BitVec 32) : Bool :=
  match majorOf w with
  | 0x01 | 0x03 | 0x04 | 0x05 | 0x06 | 0x07 | 0x08 | 0x09 | 0x0A | 0x0B | 0x0C | 0x0D | 0x0E => true
  | 0x02 => decide ((f w 22 6).toNat ≤ 3)
  | 0x30 | 0x31 | 0x32 | 0x33 | 0x34 | 0x35 | 0x36 | 0x37 => true
  | 0x41 => [1, 2, 6, 7].contains (f w 24 4).toNat
  | _ => false

/-- Whether a shadow-class word reads or writes an x register by a register field that it uses (R53, R55). -/
def usesX (w : BitVec 32) (r : Reg) : Bool :=
  let d := f w 7 5 == r
  let a := f w 12 5 == r
  let b := f w 17 5 == r
  let x := f w 11 5 == r
  let fn := (f w 22 6).toNat
  match majorOf w with
  | 0x01 | 0x02 => d || a || b
  | 0x03 | 0x04 | 0x05 | 0x06 | 0x07 | 0x08 | 0x09 | 0x0A | 0x0B | 0x0C => d || a
  | 0x0D | 0x0E => d
  | 0x33 => if fn = 2 ∨ fn = 4 then x else if fn = 3 then d else false
  | 0x36 => if fn = 4 ∨ fn = 5 then d else false
  | 0x37 => if fn = 4 ∨ 11 ≤ fn then d || a else d || a || b
  | 0x41 => if 6 ≤ (f w 24 4).toNat then b else false
  | _ => false

/-- Whether a shadow-class word reads or writes a v register by a register field that it uses. -/
def usesV (w : BitVec 32) (r : VReg) : Bool :=
  let d := f w 7 4 == r
  let a := f w 11 4 == r
  let b := f w 15 4 == r
  let fn := (f w 22 6).toNat
  match majorOf w with
  | 0x30 => if 9 ≤ fn then d || a else d || a || b
  | 0x31 => d || a || b
  | 0x32 => a || b
  | 0x33 => match fn with
    | 2 => d
    | 3 => b
    | 4 => d
    | 5 => d
    | 6 => d || a
    | 7 => d || a
    | _ => d || a || b
  | 0x34 | 0x35 => d || a
  | 0x41 => if 6 ≤ (f w 24 4).toNat then f w 12 4 == r else false
  | _ => false

/-- Whether a shadow-class word names a tile (R54). -/
def usesTile (w : BitVec 32) (acc : BitVec 3) : Bool := majorOf w == 0x41 && f w 7 3 == acc

/-- The third condition of R53 fails: the word reads or writes the head's destination. x0 is no register to write. -/
def touches (w : BitVec 32) : Dest → Bool
  | .none => false
  | .x r => r != 0 && usesX w r
  | .v r => usesV w r
  | .tile acc => usesTile w acc

/-- What a word is to the window that it stands in (R53, R55). -/
inductive WindowWord where
  | eligible
  | hazard
  | ends
  deriving DecidableEq, Repr

/-- Judges a word against a window's destination. -/
def windowWord (w : BitVec 32) (decodes : Bool) (dest : Dest) : WindowWord :=
  if !decodes || !shadowClass w then .ends else if touches w dest then .hazard else .eligible

/-- Whether a word takes an entry of the matrix queue: MMA, MLD, MST (R93). -/
def takesQueue (w : BitVec 32) : Bool :=
  majorOf w == 0x40 || (majorOf w == 0x41 && (f w 24 4 == 4 || f w 24 4 == 5))

/-- Whether a head holds an entry of its core's matrix queue (R93). -/
def HeadOp.inQueue : HeadOp → Bool
  | .mma _ _ _ _ => true
  | .mld _ _ _ => true
  | .mst _ _ _ _ => true
  | .cells _ _ _ => true
  | .marked _ _ => true
  | _ => false

/-- How many entries of a core's matrix queue are taken. -/
def queueUsed (s : State) (core : Nat) : Nat :=
  (s.threads.filter (fun p => p.2.core == core && (p.2.head.map (fun h => h.op.inQueue)).getD false)).length

/-- Whether power throttling at a level withholds a rotation (R377). -/
def withheld (rotation level : Nat) : Bool :=
  let j := rotation % 16
  decide (j * level / 16 < (j + 1) * level / 16)

/-- Whether a core issues at all in this cycle: its partition is not halted (R149), it is not retired (R380), and the
rotation is not withheld by power throttling (R377). -/
def coreRuns (s : State) (core : Nat) : Bool :=
  let k := s.cluster (clusterOfCore core)
  (s.helben.halts.find k.partId).isNone && !(s.core core).retired
    && !withheld (s.cycle / 16) (s.die (dieOfCore core)).throttle

end Sys2Proof.Machine
end

