-- ==== Sys2Proof/Machine/Mem.lean ====
section
/-!
DEFINITION. Scalar loads and stores in every pointer space (R114 to R120), FENCE, PF and the cache operations (R37, R121,
R122), the cell instructions (R330 to R333), and the events that complete a head (R102, R118, R148, R151).
-/
namespace Sys2Proof.Machine

/-- A scalar load issues: its checks pass and its head is outstanding (R118). On an L page its la counts as 0 (R56). -/
def runLoad (s : State) (d : Reg) (la : BitVec 4) (size : Nat) (sext ctl : Bool) (ptrOf : Thread → Word) : Outcome :=
  runCheck s (fun th =>
    let ptr := ptrOf th
    match checkAccess s (cxOf s th) th.place.handle .load .scalar ctl ptr size size with
    | .error e => .error e
    | .ok a =>
      .ok ((touchAcc s (some th.core) .load a).putThread s.cur
        (th.issueHead s.cycle (.load d size sext ptr a.loc a.lpage) (.x d) (if a.lpage then 0 else la.toNat))))

/-- A scalar store issues with the data of X[d] (R118). -/
def runStore (s : State) (d : Reg) (la : BitVec 4) (size : Nat) (ctl : Bool) (ptrOf : Thread → Word) : Outcome :=
  runCheck s (fun th =>
    let ptr := ptrOf th
    match checkAccess s (cxOf s th) th.place.handle .store .scalar ctl ptr size size with
    | .error e => .error e
    | .ok a =>
      .ok ((touchAcc s (some th.core) .store a).putThread s.cur
        (th.issueHead s.cycle (.store size ptr (th.getX d) a.loc a.lpage) .none la.toNat)))

/-- CFLUSH and CINV (R122): the pointer lies in GLOBAL or PRIVATE space and is checked as a load of 1 byte. A line that a
copy engine holds is acted on after the engine has written it. -/
def runCacheOp (s : State) (a : Reg) : Outcome :=
  runCheck s (fun th =>
    let ptr := th.getX a
    match spaceOf (cxOf s th) (clusterOfCore th.core) .load false ptr with
    | .error t => .error (some t)
    | .ok (.global _) | .ok (.priv _) =>
      match checkAccess s (cxOf s th) th.place.handle .load .scalar false ptr 1 1 with
      | .error e => .error e
      | .ok acc => if lineHeld s acc.loc 1 then stall else .ok (touchAcc s (some th.core) .load acc).retireCur
    | .ok _ => trapOf .spaceInvalid ptr)

/-- The checks of R330 orders 2 to 7 for an access to the cell at a pointer: its physical address and translation. -/
def cellAccess (s : State) (th : Thread) (kind : AccessKind) (needL : Bool) (ptr : Word) : Check (Nat × Hit) :=
  let cx := cxOf s th
  match spaceOf cx (clusterOfCore th.core) kind false ptr with
  | .error t => .error (some t)
  | .ok sp =>
    let va? : Option (Option Nat) := match sp with
      | .global va => some (some va)
      | .priv sum => some (if 2 ^ 52 ≤ sum + 7 then none else some sum)
      | _ => none
    match va? with
    | none => trapOf .spaceInvalid ptr
    | some va1 =>
      if ptr.toNat % 8 ≠ 0 then trapOf (misalignedOf kind) ptr else
      match va1 with
      | none => trapOf (pageFaultOf kind) ptr
      | some va =>
        match translate s cx kind va ptr with
        | .error e => .error e
        | .ok h =>
          if !attrsOk h.entry.pte then trapOf .attributeConflict ptr
          else if needL && !pteL h.entry.pte then trapOf .attributeConflict ptr
          else if lineHeld s (.dram (h.entry.pa va)) 8 then stall
          else if s.isBad (h.entry.pa va) 8 then trapOf .uncorrectableData ptr
          else .ok (h.entry.pa va, h)

/-- RESOLVE and CFAIL (R333): on an EVALUATING cell the issuer is its evaluator or in supervisor mode; an evaluator's CELL
becomes 0. -/
def runEndCell (s : State) (d a : Reg) (f : State → Nat → Word → State) : Outcome :=
  runCheck s (fun th =>
    let ptr := th.getX a
    match cellAccess s th .store true ptr with
    | .error e => .error e
    | .ok (pa, h) =>
      let mine := th.evalOf == some pa
      if s.tag pa = 2 && !mine && th.mode == .user then trapOf .cellBusyWrite ptr
      else
        let s1 := f (touch s (some th.core) .store h) pa (th.getX d)
        match s1.thread s.cur with
        | some th1 => .ok (s1.putThread s.cur ((({ th1 with cell := if mine then 0 else th1.cell }).retire s.cycle).endWindow))
        | none => .ok s1)

/-- How a load's data meets the tag of its word: SUSPENDED waits for EVALUATION_START (R321), but for a load through the REMOTE space
(R329). -/
def loadTag (s : State) (t : Nat) (loc : Loc) (lpage : Bool) (ptr : Word) (use : CellUse) : Check (Option State) :=
  match loc with
  | .dram pa => if !lpage then .ok none else if s.tag pa = 1 && !isRemotePtr ptr then stall else meetTag s t pa ptr use
  | _ => .ok none

/-- LB: 1 bytes, sign-extended (R114). -/
def execLb (d a : BitVec 5) (la : BitVec 4) (off : BitVec 11) (s : State) : Outcome :=
  runLoad s d la 1 true false (fun th => effectivePtr th a off 1)

/-- LH: 2 bytes, sign-extended (R114). -/
def execLh (d a : BitVec 5) (la : BitVec 4) (off : BitVec 11) (s : State) : Outcome :=
  runLoad s d la 2 true false (fun th => effectivePtr th a off 2)

/-- LW: 4 bytes, sign-extended (R114). -/
def execLw (d a : BitVec 5) (la : BitVec 4) (off : BitVec 11) (s : State) : Outcome :=
  runLoad s d la 4 true false (fun th => effectivePtr th a off 4)

/-- LD: 8 bytes, zero-extended (R114). -/
def execLd (d a : BitVec 5) (la : BitVec 4) (off : BitVec 11) (s : State) : Outcome :=
  runLoad s d la 8 false true (fun th => effectivePtr th a off 8)

/-- LBN: 1 bytes, zero-extended (R114). -/
def execLbn (d a : BitVec 5) (la : BitVec 4) (off : BitVec 11) (s : State) : Outcome :=
  runLoad s d la 1 false false (fun th => effectivePtr th a off 1)

/-- LHN: 2 bytes, zero-extended (R114). -/
def execLhn (d a : BitVec 5) (la : BitVec 4) (off : BitVec 11) (s : State) : Outcome :=
  runLoad s d la 2 false false (fun th => effectivePtr th a off 2)

/-- LWN: 4 bytes, zero-extended (R114). -/
def execLwn (d a : BitVec 5) (la : BitVec 4) (off : BitVec 11) (s : State) : Outcome :=
  runLoad s d la 4 false false (fun th => effectivePtr th a off 4)

/-- SB: the low 1 bytes of X[d] (R114). -/
def execSb (d a : BitVec 5) (la : BitVec 4) (off : BitVec 11) (s : State) : Outcome :=
  runStore s d la 1 false (fun th => effectivePtr th a off 1)

/-- SH: the low 2 bytes of X[d] (R114). -/
def execSh (d a : BitVec 5) (la : BitVec 4) (off : BitVec 11) (s : State) : Outcome :=
  runStore s d la 2 false (fun th => effectivePtr th a off 2)

/-- SW: the low 4 bytes of X[d] (R114). -/
def execSw (d a : BitVec 5) (la : BitVec 4) (off : BitVec 11) (s : State) : Outcome :=
  runStore s d la 4 false (fun th => effectivePtr th a off 4)

/-- SD: the low 8 bytes of X[d] (R114). -/
def execSd (d a : BitVec 5) (la : BitVec 4) (off : BitVec 11) (s : State) : Outcome :=
  runStore s d la 8 true (fun th => effectivePtr th a off 8)

/-- LWO (R120). -/
def execLwo (d a : BitVec 5) (la : BitVec 4) (_ord : BitVec 2) (_scope : BitVec 3) (s : State) : Outcome :=
  runLoad s d la 4 true false (fun th => th.getX a)

/-- LDO (R120). -/
def execLdo (d a : BitVec 5) (la : BitVec 4) (_ord : BitVec 2) (_scope : BitVec 3) (s : State) : Outcome :=
  runLoad s d la 8 false true (fun th => th.getX a)

/-- SWO (R120). -/
def execSwo (d a : BitVec 5) (la : BitVec 4) (_ord : BitVec 2) (_scope : BitVec 3) (s : State) : Outcome :=
  runStore s d la 4 false (fun th => th.getX a)

/-- SDO (R120). -/
def execSdo (d a : BitVec 5) (la : BitVec 4) (_ord : BitVec 2) (_scope : BitVec 3) (s : State) : Outcome :=
  runStore s d la 8 true (fun th => th.getX a)

/-- FENCE: the thread's earlier accesses are performed when it issues, because accesses here are performed whole and in
program order (R37, R141; log 4); it changes nothing. -/
def execFence (_ord : BitVec 2) (_scope : BitVec 3) (s : State) : Outcome :=
  runState s (fun _ => .ok s.retireCur)

/-- PF: a request that would trap is dropped; one that is accepted may fill the TLBs (R121). -/
def execPf (a : BitVec 5) (_la : BitVec 4) (_scope : BitVec 3) (s : State) : Outcome :=
  runState s (fun th =>
    let ptr := th.getX a
    match spaceOf (cxOf s th) (clusterOfCore th.core) .load false ptr with
    | .ok (.global _) | .ok (.priv _) =>
      match checkAccess s (cxOf s th) th.place.handle .load .scalar false ptr 1 1 with
      | .ok acc => .ok (touchAcc s (some th.core) .load acc).retireCur
      | .error _ => .ok s.retireCur
    | _ => .ok s.retireCur)

/-- CFLUSH: the line stays as it is; it changes no value that a load returns (R122). -/
def execCflush (a : BitVec 5) (_la : BitVec 4) (_ord : BitVec 2) (_scope : BitVec 3) (s : State) : Outcome :=
  runCacheOp s a

/-- CINV: dirty data is written back, so no value changes (R122). -/
def execCinv (a : BitVec 5) (_la : BitVec 4) (_ord : BitVec 2) (_scope : BitVec 3) (s : State) : Outcome :=
  runCacheOp s a

/-- LTAG: the word and its tag, with no action on the tag (R331). -/
def execLtag (d a : BitVec 5) (_la : BitVec 4) (_ord : BitVec 2) (_scope : BitVec 3) (s : State) : Outcome :=
  runCheck s (fun th =>
    let ptr := th.getX a
    match cellAccess s th .load false ptr with
    | .error e => .error e
    | .ok (pa, h) =>
      let s1 := touch s (some th.core) .load h
      let tag : Word := if pteL h.entry.pte then (s.tag pa).zeroExtend 64 else 0
      let th' := (th.setX d (BitVec.ofNat 64 (s.mem.readLE pa 8))).setX (d + 1) tag
      .ok (s1.putThread s.cur ((th'.retire s.cycle).endWindow)))

/-- SUSP: suspends a cell (R332); CELL_BUSY_WRITE on an EVALUATING one. -/
def execSusp (d a : BitVec 5) (_la : BitVec 4) (_scope : BitVec 3) (s : State) : Outcome :=
  runCheck s (fun th =>
    let ptr := th.getX a
    match cellAccess s th .store true ptr with
    | .error e => .error e
    | .ok (pa, h) =>
      if s.tag pa = 2 then trapOf .cellBusyWrite ptr
      else .ok (((touch s (some th.core) .store h).storePa none pa 8 (th.getX d).toNat).setTag pa 1).retireCur)

/-- RESOLVE: the value, tag VALUE, and the waiters (R333, R325). -/
def execResolve (d a : BitVec 5) (_la : BitVec 4) (_scope : BitVec 3) (s : State) : Outcome :=
  runEndCell s d a resolveCell

/-- CFAIL: the failure code, tag FAILED, and the waiters (R333, R327). -/
def execCfail (d a : BitVec 5) (_la : BitVec 4) (_scope : BitVec 3) (s : State) : Outcome :=
  runEndCell s d a (fun st pa v => st.failCell pa v)

/-- LOAD_DATA_RETURN (R118): the outstanding load of a thread is performed and written to its destination. A word whose tag is
not VALUE on an L page is met as R319 states; a SUSPENDED one waits for EVALUATION_START. -/
def execLoadDataReturn (t : Nat) (s : State) : Outcome :=
  match s.thread t with
  | some th =>
    match th.head with
    | some { op := .load d size sext ptr loc lpage, retired := k, .. } =>
      if lineHeld s loc size then .next s
      else if locBad s loc size then .next (s.trapHead t { cause := .uncorrectableData, val := ptr } k)
      else
        match loadTag s t loc lpage ptr (.load d (ptr.toNat % 8) size sext) with
        | .error (some tr) => .next (s.trapHead t tr 0)
        | .error none => .next s
        | .ok (some s') => .next s'
        | .ok none =>
          let v := extend size sext (readLoc s loc size)
          .next (((afterRead s loc).acceptLoc th.core loc).putThread t ((th.setX d v).completeHead s.cycle))
    | _ => .next s
  | none => .next s

/-- STORE_ACCEPT (R118): the outstanding store of a thread is accepted and performed. On an EVALUATING cell only its
evaluator's store is, and the tag stays (R319). -/
def execStoreAccept (t : Nat) (s : State) : Outcome :=
  match s.thread t with
  | some th =>
    match th.head with
    | some { op := .store size ptr data loc lpage, retired := k, .. } =>
      match loc with
      | .control _ _ _ => .next s
      | _ =>
        if lineHeld s loc size then .next s
        else match storeTag s th.evalOf loc lpage ptr with
          | .error tr => .next (s.trapHead t tr (if tr.cause = .uncorrectableData then k else 0))
          | .ok keep => .next (((writeLoc s keep loc size data.toNat).acceptLoc th.core loc).putThread t (th.completeHead s.cycle))
    | _ => .next s
  | none => .next s

/-- CONTROL_REGISTER_WRITE (R148): the outstanding supervisor store of a thread to a CONTROL register is performed. -/
def execControlRegisterWrite (t : Nat) (s : State) : Outcome :=
  match s.thread t with
  | some th =>
    match th.head with
    | some { op := .store size _ data (.control u cb off) _, .. } =>
      .next ((writeLoc s none (.control u cb off) size data.toNat).putThread t (th.completeHead s.cycle))
    | _ => .next s
  | none => .next s

/-- DIVIDE_COMPLETE (R102): 40 or 24 cycles after issue the quotient or remainder is written. -/
def execDivideComplete (t : Nat) (s : State) : Outcome :=
  match s.thread t with
  | some th =>
    match th.head with
    | some { op := .div d v done, .. } =>
      if s.cycle < done then .next s else .next (s.putThread t ((th.setX d v).completeHead s.cycle))
    | _ => .next s
  | none => .next s

/-- PAGE_TABLE_WALK (R151, R154): a walk for a thread that its table and mode admit fills the TLBs and sets A, and M for a
store. A refusal fills nothing (R155). -/
def execPageTableWalk (t : Nat) (va : Word) (kind : AccessKind) (s : State) : Outcome :=
  match s.thread t with
  | some th =>
    match walkHit s (cxOf s th) kind (va.extractLsb' 0 52).toNat va with
    | .ok h => .next (touch s (some th.core) kind h)
    | .error _ => .next s
  | none => .next s

/-- INSTRUCTION_FETCH (R45, R87): the line of a bound thread's next word enters its core's L1 instruction cache, or the fetch's
trap is taken. -/
def execInstructionFetch (t : Nat) (s : State) : Outcome :=
  match s.thread t with
  | some th =>
    if !th.isBound || th.trapUntil.isSome || th.head.isSome || th.wait.isSome then .next s else
    match fetch s th with
    | .error none => .next s
    | .error (some tr) => .next (s.takeTrap t tr)
    | .ok r =>
      let line := r.hit.entry.pa (th.pc.extractLsb' 0 52).toNat / 32
      let s1 := touch s (some th.core) .fetch r.hit
      let c := s1.core th.core
      .next (s1.putCore th.core { c with icache := (c.icache.put line ((c.icache.find line).getD (lineOf s line))).take 512 })
  | none => .next s

end Sys2Proof.Machine
end

