-- ==== Sys2Proof/Machine/Atom.lean ====
section
/-!
DEFINITION. The ATOM group and SMERGE (R303 to R308): their checks (R306), the requests they send, and the events that perform
them or accept their staged records.
-/
namespace Sys2Proof.Machine

/-- The size of an ATOM in bytes: 8 for op[4] = 0, 4 for op[4] = 1 (R51). -/
def atomSize (sz : BitVec 1) : Nat := if sz = 0 then 8 else 4

/-- Orders 5 to 8 of R306 on a translated ATOM: R for a returning one, the attributes, D, and K; `again` is the new walk that confirms a
refusal by a TLB entry (R24, R155). -/
def atomHit (th : Thread) (die : Nat) (ptr : Word) (returning : Bool) (again : Check Hit) (h0 : Hit) : Check Hit :=
  match (if returning && !admits th.mode .load h0.entry.pte && !h0.walked then again else .ok h0) with
  | .error e => .error e
  | .ok h =>
    if returning && !admits th.mode .load h.entry.pte then trapOf .loadProtection ptr
    else if !attrsOk h.entry.pte then trapOf .attributeConflict ptr
    else if pteD h.entry.pte && (returning || th.lctx == 0) then trapOf .determinismViolation ptr
    else
      match kvStoreCause die h.entry.pte with
      | none => .ok h
      | some c =>
        if h.walked then trapOf c ptr else
        match again with
        | .error e => .error e
        | .ok h' =>
          match kvStoreCause die h'.entry.pte with
          | none => .ok h'
          | some c' => trapOf c' ptr

/-- What another package's checks of orders 4 to 8 of R306 say of an ATOM (R372; log 6): R is asked of a returning one, and a D page
refuses a returning one and one of launch context 0. -/
def remoteAtomCause (s : State) (th : Thread) (ptr : Word) (returning : Bool) : Option Cause :=
  let status := Config.remoteStatus s.cycle ptr
  match remoteCause .store status with
  | some c => some c
  | none =>
    if returning && status == 8 then some .loadProtection
    else if (returning || th.lctx == 0) && Config.remoteDpage s.cycle ptr then some .determinismViolation
    else none

/-- The checks of R306 orders 2 to 8 for an ATOM; `returning` also needs R. -/
def atomAccess (s : State) (th : Thread) (ptr : Word) (size : Nat) (returning : Bool) : Check Acc :=
  let cx := cxOf s th
  match spaceOf cx (clusterOfCore th.core) .store false ptr with
  | .error t => .error (some t)
  | .ok sp =>
    match sp with
    | .bank _ _ _ _ => trapOf .spaceInvalid ptr
    | .control _ _ _ => trapOf .spaceInvalid ptr
    | _ =>
      if ptr.toNat % size ≠ 0 then trapOf .storeMisaligned ptr else
      match sp with
      | .global va => translated cx va
      | .priv sum => if 2 ^ 52 ≤ sum + size - 1 then trapOf .storePageFault ptr else translated cx sum
      | .remote dev addr =>
        if !reachable s.fabric dev then trapOf .remoteUnreachable ptr
        else if isOwn s.fabric dev then ownRemote cx s.fabric.device addr
        else match remoteAtomCause s th ptr returning with
          | some c => trapOf c ptr
          | none => passed { ptr := ptr, loc := .remote dev addr, hit := none, win := 0 }
      | _ => trapOf .spaceInvalid ptr
where
  /-- The watch comes after every other check (log 14). -/
  passed (a : Acc) : Check Acc := if watched s th.core ptr size then trapOf .debugWatch ptr else .ok a
  /-- Orders 4 to 8 for a GLOBAL address. -/
  translated (cx : Cx) (va : Nat) : Check Acc :=
    match translate s cx .store va ptr with
    | .error e => .error e
    | .ok h0 =>
      match atomHit th cx.die ptr returning (walkHit s cx .store va ptr) h0 with
      | .error e => .error e
      | .ok h => passed { ptr := ptr, loc := .dram (h.entry.pa va), hit := some h, win := 0 }
  /-- Orders 4 to 8 for a REMOTE address of this package (R370, R372). -/
  ownRemote (cx : Cx) (dev va : Nat) : Check Acc :=
    match s.helben.remotes.find dev with
    | none => trapOf .storePageFault ptr
    | some root =>
      match walkHit s (ownCx cx root) .store va ptr with
      | .error e => .error e
      | .ok h0 =>
        match atomHit th cx.die ptr returning (.ok h0) h0 with
        | .error e => .error e
        | .ok h => passed { ptr := ptr, loc := .dram (h.entry.pa va), hit := some h, win := 8 }

/-- Whether an ATOM that has passed its checks is staged (R309): its page has D set, in this package or in another. -/
def stagedAccess (s : State) (a : Acc) : Bool :=
  match a.loc with
  | .remote _ _ => Config.remoteDpage s.cycle a.ptr
  | _ => a.dpage

/-- Reserves n bytes of a launch's staging budget (R312). -/
def reserveFor (s : State) (lctx n : Nat) : Option State :=
  match s.launch lctx with
  | some l => (reserveStaging l n).map (fun l' => s.putLaunch lctx l')
  | none => none

/-- An ATOM issues (R305): its checks, the reservation of a staged one, and its request. The operands, MULT and FRM are read
at issue; s of its key is INSTRET [31:0] (R310). -/
def runAtom (s : State) (d a b : Reg) (op size : Nat) : Outcome :=
  runCheck s (fun th =>
    let ptr := th.getX a
    match atomAccess s th ptr size (d != 0) with
    | .error e => .error e
    | .ok acc =>
      let req : AtomReq :=
        { d := d, op := op, size := size, ptr := ptr, loc := acc.loc, lpage := acc.lpage, staged := stagedAccess s acc,
          b := th.getX b, c := th.getX (b + 1), mult := th.mult.toNat, frm := th.frm, wid := th.wid,
          seqno := (th.instret.extractLsb' 0 32).toNat }
      let s1 := touchAcc s (some th.core) .store acc
      if req.staged then
        match reserveFor s1 th.lctx.toNat 64 with
        | none => trapOf .dStagingFull ptr
        | some s2 => .ok (s2.waitCur (.atom req))
      else .ok (s1.waitCur (.atom req)))

/-- The staged record of an ATOM (R312): byte 12 is its op field. -/
def stagedOfAtom (r : AtomReq) : Staged :=
  { wid := r.wid, seqno := r.seqno, op := BitVec.ofNat 8 (r.op + (if r.size = 4 then 16 else 0)), frm := r.frm.zeroExtend 8,
    pa := match r.loc with
      | .dram pa => pa
      | _ => 0,
    mult := r.mult, b := if r.size = 4 then r.b &&& 0xFFFFFFFF else r.b, c := if r.op = 12 then r.c else 0, o := [], blocks := [],
    spill := none, places := [] }

/-- The staged record of an SMERGE (R312). -/
def stagedOfSmerge (r : SmergeReq) : Staged :=
  { wid := r.wid, seqno := r.seqno, op := 0x20, frm := BitVec.ofNat 8 (r.frm.toNat + r.op * 4), pa := r.blocks.headD 0,
    mult := r.mult, b := r.l ++ r.m, c := 0, o := r.o, blocks := r.blocks, spill := none, places := [] }

/-- The translation of one 64-byte block of a triple; the pointer in EVAL is that of its first byte. -/
def smergeBlock (s : State) (cx : Cx) (base : Nat) (ptr : Word) (j : Nat) : Check (Nat × Hit) :=
  let va := base + 64 * j
  let p := ptr + BitVec.ofNat 64 (64 * j)
  if 2 ^ 52 ≤ va + 63 then trapOf .storePageFault p
  else match translate s cx .store va p with
    | .error e => .error e
    | .ok h => .ok (h.entry.pa va, h)

/-- The checks of R306 orders 2 to 6 for an SMERGE over every byte of its triple: the first page fault of order 4 comes
before the first protection trap of order 5. -/
def smergeBlocks (s : State) (th : Thread) (ptr : Word) (n : Nat) : Check (List (Nat × Hit)) :=
  let cx := cxOf s th
  match spaceOf cx (clusterOfCore th.core) .store false ptr with
  | .error t => .error (some t)
  | .ok sp =>
    match (match sp with
      | .global va => some va
      | .priv sum => some sum
      | _ => none) with
    | none => trapOf .spaceInvalid ptr
    | some base =>
      if ptr.toNat % 64 ≠ 0 then trapOf .storeMisaligned ptr else
      let rs := (List.range n).map (smergeBlock s cx base ptr)
      let errs := rs.filterMap (fun r => match r with
        | .error t => some t
        | .ok _ => none)
      if errs.contains none then stall else
      match errs.find? (fun t => (t.map (·.cause)) != some .storeProtection) with
      | some t => .error t
      | none =>
        match errs.head? with
        | some t => .error t
        | none =>
          let hits := rs.filterMap (fun r => match r with
            | .ok h => some h
            | .error _ => none)
          if hits.any (fun h => !attrsOk h.2.entry.pte) then trapOf .attributeConflict ptr else .ok hits

/-- AADD (R303): op 0. -/
def execAadd (d a : BitVec 5) (_scope : BitVec 3) (_ord : BitVec 2) (b : BitVec 5) (sz : BitVec 1) (s : State) : Outcome :=
  runAtom s d a b 0 (atomSize sz)

/-- AFADD (R303): op 1. -/
def execAfadd (d a : BitVec 5) (_scope : BitVec 3) (_ord : BitVec 2) (b : BitVec 5) (s : State) : Outcome :=
  runAtom s d a b 1 4

/-- AAND (R303): op 2. -/
def execAand (d a : BitVec 5) (_scope : BitVec 3) (_ord : BitVec 2) (b : BitVec 5) (sz : BitVec 1) (s : State) : Outcome :=
  runAtom s d a b 2 (atomSize sz)

/-- AOR (R303): op 3. -/
def execAor (d a : BitVec 5) (_scope : BitVec 3) (_ord : BitVec 2) (b : BitVec 5) (sz : BitVec 1) (s : State) : Outcome :=
  runAtom s d a b 3 (atomSize sz)

/-- AXOR (R303): op 4. -/
def execAxor (d a : BitVec 5) (_scope : BitVec 3) (_ord : BitVec 2) (b : BitVec 5) (sz : BitVec 1) (s : State) : Outcome :=
  runAtom s d a b 4 (atomSize sz)

/-- AMIN (R303): op 5. -/
def execAmin (d a : BitVec 5) (_scope : BitVec 3) (_ord : BitVec 2) (b : BitVec 5) (sz : BitVec 1) (s : State) : Outcome :=
  runAtom s d a b 5 (atomSize sz)

/-- AMAX (R303): op 6. -/
def execAmax (d a : BitVec 5) (_scope : BitVec 3) (_ord : BitVec 2) (b : BitVec 5) (sz : BitVec 1) (s : State) : Outcome :=
  runAtom s d a b 6 (atomSize sz)

/-- AMINN (R303): op 7. -/
def execAminn (d a : BitVec 5) (_scope : BitVec 3) (_ord : BitVec 2) (b : BitVec 5) (sz : BitVec 1) (s : State) : Outcome :=
  runAtom s d a b 7 (atomSize sz)

/-- AMAXN (R303): op 8. -/
def execAmaxn (d a : BitVec 5) (_scope : BitVec 3) (_ord : BitVec 2) (b : BitVec 5) (sz : BitVec 1) (s : State) : Outcome :=
  runAtom s d a b 8 (atomSize sz)

/-- AFMIN (R303): op 9. -/
def execAfmin (d a : BitVec 5) (_scope : BitVec 3) (_ord : BitVec 2) (b : BitVec 5) (s : State) : Outcome :=
  runAtom s d a b 9 4

/-- AFMAX (R303): op 10. -/
def execAfmax (d a : BitVec 5) (_scope : BitVec 3) (_ord : BitVec 2) (b : BitVec 5) (s : State) : Outcome :=
  runAtom s d a b 10 4

/-- ASWP (R303): op 11. -/
def execAswp (d a : BitVec 5) (_scope : BitVec 3) (_ord : BitVec 2) (b : BitVec 5) (sz : BitVec 1) (s : State) : Outcome :=
  runAtom s d a b 11 (atomSize sz)

/-- ACAS (R303): op 12. -/
def execAcas (d a : BitVec 5) (_scope : BitVec 3) (_ord : BitVec 2) (b : BitVec 5) (sz : BitVec 1) (s : State) : Outcome :=
  runAtom s d a b 12 (atomSize sz)

/-- AADDO (R303): op 13. -/
def execAaddo (d a : BitVec 5) (_scope : BitVec 3) (_ord : BitVec 2) (b : BitVec 5) (sz : BitVec 1) (s : State) : Outcome :=
  runAtom s d a b 13 (atomSize sz)

/-- AFADDO (R303): op 14. -/
def execAfaddo (d a : BitVec 5) (_scope : BitVec 3) (_ord : BitVec 2) (b : BitVec 5) (s : State) : Outcome :=
  runAtom s d a b 14 4

/-- SMERGE (R307, R308): the partial is read at issue and the request sent to the triple's home slice. -/
def execSmerge (d : BitVec 4) (a : BitVec 5) (_scope : BitVec 3) (_ord : BitVec 2) (b op : BitVec 5) (s : State) : Outcome :=
  runCheck s (fun th =>
    let ptr := th.getX a
    let blockCount := 1 + 4 * (op.toNat + 1)
    match smergeBlocks s th ptr blockCount with
    | .error e => .error e
    | .ok hits =>
      let dpage := hits.head?.map (fun h => pteD h.2.entry.pte) == some true
      if dpage && th.lctx == 0 then trapOf .determinismViolation ptr
      else if hits.any (fun h => pteL h.2.entry.pte || pteK h.2.entry.pte) then trapOf .storeProtection ptr
      else if watched s th.core ptr (64 * blockCount) then trapOf .debugWatch ptr
      else
        let regs := (List.range (op.toNat + 1)).map (fun i => th.getV (d + BitVec.ofNat 4 i))
        let req : SmergeReq :=
          { ptr := ptr, blocks := hits.map (·.1), op := op.toNat, staged := dpage, m := (th.getX b).extractLsb' 0 32,
            l := (th.getX b).extractLsb' 32 32, o := (regs.map (fun v => (elemsOf v 32).map (BitVec.ofNat 32))).flatten,
            mult := th.mult.toNat, frm := th.frm, wid := th.wid, seqno := (th.instret.extractLsb' 0 32).toNat }
        let s1 := hits.foldl (fun st h => touch st (some th.core) .store h.2) s
        if dpage then
          match reserveFor s1 th.lctx.toNat (64 * blockCount) with
          | none => trapOf .dStagingFull ptr
          | some s2 => .ok (s2.waitCur (.smerge req))
        else .ok (s1.waitCur (.smerge req)))

/-- SLICE_ATOMIC_PERFORM (R303, R305): the home slice performs the atomic that a thread waits for. On an L page it acts on the
word's tag as a load does (R306). -/
def execSliceAtomicPerform (t : Nat) (s : State) : Outcome :=
  match s.thread t with
  | some th =>
    match th.wait with
    | some (.atom r) =>
      if r.staged then .next s
      else if lineHeld s r.loc r.size then .next s
      else if locBad s r.loc r.size then .next (s.takeTrap t { cause := .uncorrectableData, val := r.ptr })
      else
        match loadTag s t r.loc r.lpage r.ptr (.atom r) with
        | .error (some tr) => .next (s.takeTrap t tr)
        | .error none => .next s
        | .ok (some s') => .next s'
        | .ok none =>
          match r.loc with
          | .dram pa =>
            let q := performAtom s pa r
            .next ((q.1.acceptPort th.core pa).finishWait t (fun x => x.setX r.d q.2))
          | loc =>
            let old := readLoc s loc r.size
            .next ((afterRead s loc).finishWait t (fun x => x.setX r.d (atomResult r.op r.size old
              (atomNew r.op (8 * r.size) old (r.b.toNat % 2 ^ (8 * r.size)) (r.c.toNat % 2 ^ (8 * r.size)) r.mult r.frm).2)))
    | _ => .next s
  | none => .next s

/-- SMERGE_PERFORM (R308): the home slice merges the partial that a thread sent. -/
def execSmergePerform (t : Nat) (s : State) : Outcome :=
  match s.thread t with
  | some th =>
    match th.wait with
    | some (.smerge r) =>
      if r.staged then .next s
      else if r.blocks.any (fun b => lineHeld s (.dram b) 64) then .next s
      else if r.blocks.any (fun b => s.isBad b 64) then .next (s.takeTrap t { cause := .uncorrectableData, val := r.ptr })
      else
        .next (((performSmerge s r.blocks r.m.toNat r.l.toNat (r.o.map (·.toNat)) r.mult r.frm).acceptPort th.core
          (r.blocks.getD 0 0)).finishWait t id)
    | _ => .next s
  | none => .next s

/-- STAGED_RECORD_ACCEPT (R312, R313): the slice accepts the staged operation that a thread sent, and the thread goes on; a
record that cannot be spilled gives its reservation back and traps. One for another package is kept there (R309; log 81). -/
def execStagedRecordAccept (t : Nat) (s : State) : Outcome :=
  match s.thread t with
  | some th =>
    match s.launch th.lctx.toNat with
    | none => .next s
    | some l =>
      let finish := fun (r : Staged) =>
        match acceptStaged s th.lctx.toNat l r with
        | .ok s1 => Host.Outcome.next ((s1.acceptPort th.core r.pa).finishWait t id)
        | .error none => .next s
        | .error (some tr) =>
          let s1 := s.putLaunch th.lctx.toNat { l with budget := l.budget - stagedSize r.op r.frm }
          .next (s1.takeTrap t tr)
      match th.wait with
      | some (.atom r) =>
        if !r.staged then .next s else
        match r.loc with
        | .remote _ _ => .next (s.finishWait t id)
        | _ => finish (stagedOfAtom r)
      | some (.smerge r) => if r.staged then finish (stagedOfSmerge r) else .next s
      | _ => .next s
  | none => .next s

end Sys2Proof.Machine
end

