-- ==== Sys2Proof/Machine/Ctrl.lean ====
section
/-!
DEFINITION. Branches and jumps (R111 to R113), the CSR group (R95, R96, R123, R124) and the privileged group (R125 to R133).
-/
namespace Sys2Proof.Machine

/-- A BCC (R111). -/
def runBranch (s : State) (a b : Reg) (off : BitVec 12) (taken : Word → Word → Bool) : Outcome :=
  runJump s (fun th =>
    .ok (th, if taken (th.getX a) (th.getX b) then branchTarget th.pc off else th.pc + 4))

/-! ### Control and status registers -/

/-- How a CSR may be accessed (R95). -/
inductive CsrAccess where
  | user
  | readOnly
  | readOnlySupWritable
  | supervisor
  deriving DecidableEq, Repr

/-- The CSRs of R95 by number. -/
def csrAccess (n : Nat) : Option CsrAccess :=
  if n = 0x000 ∨ n = 0x001 ∨ n = 0x002 then some .user
  else if n = 0x003 then some .readOnly
  else if n = 0x010 ∨ n = 0x011 then some .readOnlySupWritable
  else if 0x020 ≤ n ∧ n ≤ 0x02D then some .readOnly
  else if n = 0x030 ∨ n = 0x031 then some .readOnly
  else if n = 0x032 then some .readOnlySupWritable
  else if 0x040 ≤ n ∧ n ≤ 0x044 then some .user
  else if n = 0x050 ∨ n = 0x051 then some .user
  else if 0x100 ≤ n ∧ n ≤ 0x106 then some .supervisor
  else if n = 0x110 ∨ n = 0x111 then some .supervisor
  else none

/-- The flags of ROTN: STRICT, deterministic, replayable, system-scope completion (R95). -/
def rotnOf (s : State) (th : Thread) : Word :=
  match s.launch th.lctx.toNat with
  | some l => BitVec.ofNat 64 ((if l.hdr.strict then 1 else 0) + (if l.hdr.det then 2 else 0)
      + (if l.hdr.replay then 4 else 0) + (if l.hdr.syscomp then 8 else 0))
  | none => 0

/-- The value of a CSR (R95). -/
def csrRead (s : State) (th : Thread) (n : Nat) : Word :=
  let h := th.place.handle
  match n with
  | 0x000 => th.fflags.zeroExtend 64
  | 0x001 => th.frm.zeroExtend 64
  | 0x002 => th.ftrap.zeroExtend 64
  | 0x003 => th.flagorg
  | 0x010 => th.mult.zeroExtend 64
  | 0x011 => th.live.zeroExtend 64
  | 0x020 => th.wid
  | 0x021 => wfOf (widthsOf s th) th.wid 1
  | 0x022 => wfOf (widthsOf s th) th.wid 2
  | 0x023 => wfOf (widthsOf s th) th.wid 3
  | 0x024 => wfOf (widthsOf s th) th.wid 4
  | 0x025 => wfOf (widthsOf s th) th.wid 5
  | 0x026 => wfOf (widthsOf s th) th.wid 6
  | 0x027 => lctxCsr s th
  | 0x028 => BitVec.ofNat 64 (h / 16)
  | 0x029 => BitVec.ofNat 64 (h % 16)
  | 0x02A => th.cell
  | 0x02B => th.widself
  | 0x02C => BitVec.ofNat 64 h
  | 0x02D => rotnOf s th
  | 0x030 => BitVec.ofNat 64 s.cycle
  | 0x031 => th.instret
  | 0x032 => th.privbase
  | 0x040 => th.utvec
  | 0x041 => th.uepc
  | 0x042 => th.ucause
  | 0x043 => th.uval
  | 0x044 => th.uskip
  | 0x050 => th.mxcfg
  | 0x051 => th.mxcnt
  | 0x100 => (s.csrsOf th).tvec
  | 0x101 => th.epc
  | 0x102 => th.cause
  | 0x103 => th.eval
  | 0x104 => th.eskip
  | 0x105 => th.emode.code
  | 0x106 => (s.csrsOf th).deleg
  | 0x110 => (s.csrsOf th).asid.zeroExtend 64
  | 0x111 => (s.csrsOf th).ptbase
  | _ => 0

/-- A LIVE mask within the limits of R161: [63:32] and [0] zero, at most 8 bits set. -/
def liveOk (m : Word) : Bool :=
  m.extractLsb' 32 32 == 0 && !m.getLsbD 0
    && decide (((List.range 32).filter (fun i => m.getLsbD i)).length ≤ 8)

/-- Check 4 of R96: what a write to MULT or LIVE may not do. -/
def csrWriteTrap (n : Nat) (v : Word) : Option Trap :=
  if n = 0x010 ∧ (v.extractLsb' 0 32 = 0 ∨ v.extractLsb' 32 32 ≠ 0) then
    some { cause := .csrInvalid, val := 0x010 }
  else if n = 0x011 ∧ liveOk v = false then some { cause := .meetLiveMask, val := v }
  else none

/-- A write of a thread's own CSR; bits beyond its width are dropped (R96, R135). -/
def csrWriteThread (th : Thread) (n : Nat) (v : Word) : Thread :=
  match n with
  | 0x000 => { th with fflags := v.truncate 5 }
  | 0x001 => { th with frm := v.truncate 2 }
  | 0x002 => { th with ftrap := v.truncate 5 }
  | 0x010 => { th with mult := v.truncate 32 }
  | 0x011 => { th with live := v.truncate 32 }
  | 0x032 => { th with privbase := v &&& 0x000FFFFFFFFF0000 }
  | 0x040 => { th with utvec := v &&& ~~~ 3 }
  | 0x041 => { th with uepc := v }
  | 0x042 => { th with ucause := v &&& 0x3F }
  | 0x043 => { th with uval := v }
  | 0x044 => { th with uskip := v }
  | 0x050 => { th with mxcfg := v &&& 7 }
  | 0x051 => { th with mxcnt := v }
  | 0x101 => { th with epc := v }
  | 0x102 => { th with cause := v &&& 0x3F }
  | 0x103 => { th with eval := v }
  | 0x104 => { th with eskip := v }
  | 0x105 => { th with emode := Mode.ofBit (v.getLsbD 0) }
  | _ => th

/-- A write of a context CSR (R95, R96, R135). -/
def csrWriteCtx (k : CtxCsrs) (n : Nat) (v : Word) : CtxCsrs :=
  match n with
  | 0x100 => { k with tvec := v &&& ~~~ 3 }
  | 0x106 => { k with deleg := v &&& ~~~ delegFixed }
  | 0x110 => { k with asid := v.truncate 16 }
  | 0x111 => { k with ptbase := v &&& 0x0000FFFFFFFF0000 }
  | _ => k

/-- Whether a CSR has one copy per launch context on each core (R95). -/
def csrIsContext (n : Nat) : Bool := [0x100, 0x106, 0x110, 0x111].contains n

/-- The checks of R96 in order, for a read or a write. -/
def csrCheck (th : Thread) (n : Nat) (writes : Bool) : Option Trap :=
  match csrAccess n with
  | none => some { cause := .csrInvalid, val := BitVec.ofNat 64 n }
  | some .supervisor => if th.mode = .user then some { cause := .privileged, val := th.pc } else none
  | some .user => none
  | some .readOnly => if writes then some { cause := .csrInvalid, val := BitVec.ofNat 64 n } else none
  | some .readOnlySupWritable =>
    if writes && th.mode == .user then some { cause := .csrInvalid, val := BitVec.ofNat 64 n } else none

/-- A CSR instruction (R123): `new` gives the value written from the thread and the old value, none for CSRR. -/
def runCsr (s : State) (d : Reg) (csr : BitVec 12) (new : Option (Thread → Word → Word)) : Outcome :=
  runState s (fun th =>
    let n := csr.toNat
    match csrCheck th n new.isSome with
    | some t => .error t
    | none =>
      let old := csrRead s th n
      match new with
      | none => .ok (s.retireX d old)
      | some f =>
        let v := f th old
        match csrWriteTrap n v with
        | some t => .error t
        | none =>
          let th' := ((csrWriteThread th n v).setX d old).retire s.cycle
          let s1 := if csrIsContext n then s.setCsrsOf th (csrWriteCtx (s.csrsOf th) n v) else s
          .ok (s1.putThread s.cur th'.endWindow))

/-! ### The privileged group -/

/-- Whether a TLB entry is selected by TLBINV (R129): by the address in xa, and by the ASID in xb, which leaves entries
with G set. -/
def tlbSelected (va : Option Nat) (asid : Option (BitVec 16)) (e : TlbEntry) : Bool :=
  (match va with
    | none => true
    | some a => e.page == (if e.large then a / 2 ^ 29 else a / 2 ^ 16))
  && (match asid with
    | none => true
    | some i => e.asid == i && !pteG e.pte)

/-- Removes the selected entries from every core TLB and cluster TLB of the package. -/
def invalidateTlbs (s : State) (sel : TlbEntry → Bool) : State :=
  { s with cores := s.cores.map (fun p => (p.1, { p.2 with tlb := p.2.tlb.filter (fun e => !sel e) })),
           clusters := s.clusters.map (fun p => (p.1, { p.2 with tlb := p.2.tlb.map (fun q => (q.1, q.2.filter (fun e => !sel e))) })) }

/-- Whether an outstanding head has an access still to be performed of which `f` holds, by its pointer and its place. A divide has none, and
the operands of an MMA or MLD have been read when it issued. -/
def HeadOp.pendingAt (h : HeadOp) (f : Word → Loc → Bool) : Bool :=
  match h with
  | .load _ _ _ ptr loc _ => f ptr loc
  | .store _ ptr _ loc _ => f ptr loc
  | .vload _ lanes => lanes.any (fun l => f l.ptr l.loc)
  | .vstore lanes _ => lanes.any (fun l => f l.ptr l.loc)
  | .vstq ptr pa hdr _ _ => f ptr (.dram pa) || f ptr (.dram hdr)
  | .mst _ _ lanes _ => lanes.any (fun l => f l.ptr l.loc)
  | _ => false

/-- Whether an access of another thread of which `f` holds has been translated and not yet performed (R129, R24). -/
def accessOutstanding (s : State) (f : Thread → Word → Loc → Bool) : Bool :=
  s.threads.any (fun p => p.1 != s.cur &&
    ((p.2.head.map (fun h => h.op.pendingAt (f p.2))).getD false
    || (match p.2.wait with
      | some (.atom r) => f p.2 r.ptr r.loc
      | some (.smerge r) => r.blocks.any (fun b => f p.2 r.ptr (.dram b))
      | _ => false)))

/-- Whether an access of another thread reaches a 64 KiB page through entries that a KV instruction invalidates (R350, R351, R24). -/
def pageOutstanding (s : State) (pa : Nat) : Bool :=
  accessOutstanding s (fun _ _ loc => match loc with
    | .dram a => a / 65536 == pa / 65536
    | _ => false)

/-- Whether an access of another thread has been translated through an entry that TLBINV may select: by its page and its address space,
of whichever size its page is and whether or not it is global (R129). -/
def selectedOutstanding (s : State) (va : Option Nat) (asid : Option (BitVec 16)) : Bool :=
  accessOutstanding s (fun th ptr _ => match globalOf th.privbase ptr with
    | some x => (va.map (fun a => x / 2 ^ 29 == a / 2 ^ 29)).getD true && (asid.map (fun i => i == (s.csrsOf th).asid)).getD true
    | none => false)

/-- Whether a bound thread stands at an instruction boundary, so that CTXOUT can save it (R130): an outstanding MACQ is
withdrawn, and a trap in which its wait has ended is taken first. An instruction that TRET re-executes comes first too, of which R130 says
nothing (log 26). -/
def Thread.canLeave (th : Thread) : Bool :=
  th.head.isNone && th.trapUntil.isNone && th.redo.isNone && th.pending.isEmpty && th.owed.isNone && (match th.wait with
    | none => true
    | some (.macq _ _ _) => true
    | _ => false)

/-- The thread that a context record names: one that CTXOUT saved from the same slot with the same work identifier, context
and cell (log 18). -/
def savedThread (s : State) (l : List Word) (home : Nat) : Option (Nat × Thread) :=
  s.threads.find? (fun p => match p.2.place with
    | .out h _ => h == home && p.2.widself == recordAt l 4712 && p.2.lctx == (recordAt l 4696).truncate 16
        && p.2.cell == recordAt l 4704
    | _ => false)

/-- CTXOUT writes the record of a thread at a boundary and empties its slot (R130): the state but for X[d], or the trap of a store. -/
def saveOut (s : State) (th : Thread) (t : Nat) (target : Thread) (ptr : Word) : Check State :=
  let out := { target with wait := none, window := none, preempt := false }
  match storeWordsAt s (cxOf s th) th.place.handle ptr (recordWords s t out target.place.handle) with
  | .error e => .error e
  | .ok s1 => .ok ((s1.putThread t { out with place := .out target.place.handle ptr }).freeSlot target.place.handle)

/-- A CTXOUT that waited for thread t goes on (R130): X[d] is 1 if that thread has parked or retired, else it is saved once it stands
at a boundary. -/
def finishCtxout (s : State) (w : Nat) (th : Thread) (d : Reg) (t : Nat) (ptr : Word) : State :=
  match s.thread t with
  | none => s.finishWait w (fun x => x.setX d 1)
  | some target =>
    if !target.isBound then s.finishWait w (fun x => x.setX d 1)
    else if !target.canLeave then s
    else match saveOut s th t target ptr with
      | .error none => s
      | .error (some tr) => s.takeTrap w tr
      | .ok s1 => s1.finishWait w (fun x => x.setX d 0)

/-- The CTXOUT that waits for a thread. -/
def ctxoutOf (s : State) (t : Nat) : Option (Nat × Thread) :=
  s.threads.find? (fun p => match p.2.wait with
    | some (.ctxout _ x _) => x == t
    | _ => false)

/-- BEQ (R111). -/
def execBeq (a b : BitVec 5) (off : BitVec 12) (s : State) : Outcome :=
  runBranch s a b off (fun A B => decide (A = B))

/-- BNE (R111). -/
def execBne (a b : BitVec 5) (off : BitVec 12) (s : State) : Outcome :=
  runBranch s a b off (fun A B => decide (A ≠ B))

/-- BLT (R111). -/
def execBlt (a b : BitVec 5) (off : BitVec 12) (s : State) : Outcome :=
  runBranch s a b off (fun A B => decide (A.toInt < B.toInt))

/-- BGE (R111). -/
def execBge (a b : BitVec 5) (off : BitVec 12) (s : State) : Outcome :=
  runBranch s a b off (fun A B => decide (B.toInt ≤ A.toInt))

/-- BLTN (R111). -/
def execBltn (a b : BitVec 5) (off : BitVec 12) (s : State) : Outcome :=
  runBranch s a b off (fun A B => decide (A.toNat < B.toNat))

/-- BGEN (R111). -/
def execBgen (a b : BitVec 5) (off : BitVec 12) (s : State) : Outcome :=
  runBranch s a b off (fun A B => decide (B.toNat ≤ A.toNat))

/-- CALL: links, then jumps (R112). -/
def execCall (d : BitVec 5) (off : BitVec 20) (s : State) : Outcome :=
  runJump s (fun th => .ok (th.setX d (th.pc + 4), callTarget th.pc off))

/-- JMPR: a misaligned target traps MISALIGNED_FETCH here, before anything is written (R113). -/
def execJmpr (d a : BitVec 5) (imm : BitVec 15) (s : State) : Outcome :=
  runJump s (fun th =>
    let t := th.getX a + immI imm
    if t.toNat % 4 ≠ 0 then .error { cause := .misalignedFetch, val := t } else .ok (th.setX d (th.pc + 4), t))

/-- CSRR (R123). -/
def execCsrr (d : BitVec 5) (csr : BitVec 12) (s : State) : Outcome :=
  runCsr s d csr none

/-- CSRW (R123). -/
def execCsrw (d a : BitVec 5) (csr : BitVec 12) (s : State) : Outcome :=
  runCsr s d csr (some (fun th _ => th.getX a))

/-- CSRS (R123). -/
def execCsrs (d a : BitVec 5) (csr : BitVec 12) (s : State) : Outcome :=
  runCsr s d csr (some (fun th old => old ||| th.getX a))

/-- CSRC (R123). -/
def execCsrc (d a : BitVec 5) (csr : BitVec 12) (s : State) : Outcome :=
  runCsr s d csr (some (fun th old => old &&& ~~~(th.getX a)))

/-- ECALL traps (R126). -/
def execEcall (s : State) : Outcome :=
  runState s (fun th => .error { cause := if th.mode = .user then .ecallUser else .ecallSupervisor, val := 0 })

/-- EBREAK traps BREAKPOINT (R126). -/
def execEbreak (s : State) : Outcome :=
  runState s (fun _ => .error { cause := .breakpoint, val := 0 })

/-- TRET (R127): the slot is TRAPPING for 16 cycles, and with a skip the instruction at the return point runs once with
its effect on the PC left out. -/
def execTret (s : State) : Outcome :=
  runState s (fun th => (th.returnFromTrap s.cycle).map (fun th' => s.putThread s.cur th'.endWindow))

/-- FENCEI: the core's L1 instruction cache is discarded (R128). -/
def execFencei (s : State) : Outcome :=
  runState s (fun th =>
    let c := s.core th.core
    .ok ((s.putCore th.core { c with icache := [] }).retireCur))

/-- TLBINV (R129): it completes once every outstanding access of another thread through an entry that it selects has been performed. -/
def execTlbinv (a b : BitVec 5) (s : State) : Outcome :=
  runCheck s (fun th =>
    if th.mode = .user then trapOf .privileged th.pc
    else
      let va := if a = 0 then none else some ((th.getX a).extractLsb' 0 52).toNat
      let asid := if b = 0 then none else some ((th.getX b).truncate 16)
      if selectedOutstanding s va asid then stall
      else .ok (invalidateTlbs s (tlbSelected va asid)).retireCur)

/-- CTXOUT (R130): it waits for the thread that it found in the slot, which issues nothing more meanwhile. A slot whose context CTXIN has
restored and no boundary has bound yet counts as EMPTY here, and not for another CTXIN (log 73). -/
def execCtxout (d a b : BitVec 5) (s : State) : Outcome :=
  runCheck s (fun th =>
    if th.mode = .user then trapOf .privileged th.pc else
    let slot := (th.getX a).toNat % 16
    let ptr := th.getX b
    if slot = slotOfHandle th.place.handle then .ok (s.retireX d 2) else
    match s.inSlot (handleOf th.core slot) with
    | none => .ok (s.retireX d 1)
    | some (t, target) =>
      if ptr.extractLsb' 60 4 ≠ 0 then trapOf .spaceInvalid ptr
      else if ptr.toNat % 256 ≠ 0 then trapOf .storeMisaligned ptr
      else if !target.canLeave then .ok (s.waitCur (.ctxout d t ptr))
      else
        match saveOut s th t target ptr with
        | .error e => .error e
        | .ok s1 => .ok (s1.retireX d 0))

/-- CTXIN (R131): the conditions in the order 1, 3, 2. The record is read with loads of 8 bytes, so that X[a] need only be a multiple of
8, of which R131 says nothing (log 62); a word on an L page that is no VALUE makes the instruction wait for its cell and be performed again,
or fails it (R319). -/
def execCtxin (d a b : BitVec 5) (s : State) : Outcome :=
  runCheck s (fun th =>
    if th.mode = .user then trapOf .privileged th.pc else
    let slot := (th.getX b).toNat % 16
    let handle := handleOf th.core slot
    let ptr := th.getX a
    if s.threads.any (fun p => p.2.place == .slot handle || p.2.place == .arriving handle) then .ok (s.retireX d 1) else
    match loadTags s th ptr 608 with
    | .error none => stall
    | .error (some _) => trapOf .contextRecordInvalid ptr
    | .ok (some s1) => .ok s1
    | .ok none =>
    match loadWords s (cxOf s th) th.place.handle ptr 608 with
    | .error none => stall
    | .error (some _) => trapOf .contextRecordInvalid ptr
    | .ok (l, s1) =>
      let home := ((recordAt l 4832).extractLsb' 0 17).toNat
      if !recordValid l || !recordCoreOk l th.core then trapOf .contextRecordInvalid ptr else
      let saved := savedThread s l home
      let lctx := ((recordAt l 4696).extractLsb' 0 16).toNat
      if saved.any (fun p => keepsHandle s p.1 p.2) && home != handle then .ok (s.retireX d 3)
      else if !servesOrCan s th.core lctx then .ok (s.retireX d 2)
      else
        let s2 := takeContext s1 th.core lctx
        let t := (saved.map (·.1)).getD s2.nextTid
        let base := (saved.map (·.2)).getD (Thread.reset (.arriving handle) s2.seq s2.cycle)
        let s3 := if saved.isSome then s2 else { s2 with nextTid := s2.nextTid + 1 }
        .ok ((s3.putThread t { loadRecord base l with place := .arriving handle }).retireX d 0))

/-- HALT (R132): Helben logs the handle and X[a]; no completion-tree node is decremented. -/
def execHalt (a : BitVec 5) (s : State) : Outcome :=
  runState s (fun th =>
    if th.mode = .user then .error { cause := .privileged, val := th.pc }
    else .ok ((s.removeThread s.cur).logEvent .halt th.place.handle (th.getX a) 0))

/-- WFI (R133): it completes at once when the mailbox holds an entry or the doorbell is pending. -/
def execWfi (d a : BitVec 5) (s : State) : Outcome :=
  runState s (fun th =>
    if th.mode = .user then .error { cause := .privileged, val := th.pc } else
    let cl := clusterOfCore th.core
    let k := s.cluster cl
    if 0 < mailCount s th.place.handle then .ok (s.retireX d 0)
    else if k.doorbell then .ok ((s.putCluster cl { k with doorbell := false }).retireX d 1)
    else .ok (s.waitCur (.wfi d (if th.getX a = 0 then none else some (s.cycle + (th.getX a).toNat)) [])))

end Sys2Proof.Machine
end

