-- ==== Sys2Proof/Machine/Meet.lean ====
section
/-!
DEFINITION. The meet engine (R158 to R176): arrivals, merges, departures, member logs, and the MEET group.
-/
namespace Sys2Proof.Machine

/-- A table pointer (R158): its bank's number in the package. A bank whose mode is changing makes the instruction wait. -/
def tableBank (s : State) (th : Thread) (ptr : Word) : Check Nat :=
  let cl := clusterOfCore th.core
  match spaceOf { cxOf s th with mode := .supervisor } cl .load false ptr with
  | .ok (.bank c b off win) =>
    if c ≠ cl ∨ off ≠ 0 ∨ win ≠ 0 then trapOf .meetTableInvalid ptr
    else
      let bk := s.bank (cl * 32 + b)
      if bk.changes ≠ [] then stall else
      match bk.mode with
      | .meet _ => .ok (cl * 32 + b)
      | _ => trapOf .meetTableInvalid ptr
  | _ => trapOf .meetTableInvalid ptr

/-- The table of a bank, if it is in MEET mode. -/
def tableOf (s : State) (bank : Nat) : Option Table :=
  match (s.bank bank).mode with
  | .meet t => some t
  | _ => none
def putTable (s : State) (bank : Nat) (t : Table) : State := s.putBank bank { s.bank bank with mode := .meet t }

/-- The live registers of a mask, in register-number order, as a thread holds them (R159). -/
def liveValues (th : Thread) (live : BitVec 32) : List Word :=
  ((List.range 32).filter (fun i => live.getLsbD i)).map (fun i => th.getX (BitVec.ofNat 5 i))

/-- The match key of an arrival (R159). -/
def matchKey (th : Thread) : MeetKey :=
  { pc := th.pc, lctx := th.lctx, mode := th.mode, live := th.live, vals := liveValues th th.live, frm := th.frm,
    ftrap := th.ftrap, mxcfg := th.mxcfg, privbase := th.privbase, utvec := th.utvec, cell := th.cell }

/-- The hash of an arrival at a table handle (R162). -/
def meetHash (th : Thread) (handle : Nat) : Word :=
  (liveValues th th.live).foldl (· ^^^ ·) 0 ^^^ th.pc ^^^ (BitVec.ofNat 64 handle <<< 48)
/-- The set of a hash (R162). -/
def meetSet (h : Word) : Nat := (h.extractLsb' 0 8 ^^^ h.extractLsb' 8 8).toNat

/-- The four counters of MXCNT (R231). -/
def mxCounts (w : Word) : List Nat := (List.range 4).map (fun i => (w.extractLsb' (16 * i) 16).toNat)
/-- MXCNT from counters that saturate at 0xFFFF (R231). -/
def mxOf (l : List Nat) : Word := BitVec.ofNat 64 (packElems 16 (l.map (fun n => min n 0xFFFF)))

/-- What every thread that passes a meet loses (R168): registers outside its live mask and the user trap registers. -/
def Thread.clearForMeet (th : Thread) : Thread :=
  { th with x := Vector.ofFn (fun i : Fin 32 => if th.live.getLsbD i.val then th.getX (BitVec.ofNat 5 i.val) else 0),
            v := Vector.replicate 16 0, m := Vector.replicate 8 0, uepc := 0, ucause := 0, uval := 0, uskip := 0 }

/-- The status word (R167). -/
def meetStatus (merged collision late full cut : Bool) : Word :=
  BitVec.ofNat 64 ((if merged then 1 else 0) + (if collision then 2 else 0) + (if late then 4 else 0)
    + (if full then 8 else 0) + (if cut then 16 else 0))

/-- Writes a record to a table's member log (R171); a full log drops it and is marked lost. -/
def logRecord (s : State) (bank : Nat) (w0 w1 : Word) : State :=
  match tableOf s bank with
  | none => s
  | some t =>
    match t.log with
    | none => s
    | some l =>
      let a := l.start + 16 * l.count
      if (l.start / 2 ^ 17 + 1) * 2 ^ 17 < a + 16 then putTable s bank { t with log := some { l with lost := true } }
      else
        putTable (logLater s a [w0, w1]) bank { t with log := some { l with count := l.count + 1 } }

/-- Word 1 of a member log record (R171). -/
def logWord (mult entry serial : Nat) (departure : Bool) : Word :=
  BitVec.ofNat 64 (mult % 2 ^ 32 + entry % 1024 * 2 ^ 32 + serial % 2 ^ 21 * 2 ^ 42 + (if departure then 2 ^ 63 else 0))

/-- The owner of a departing entry, before its PC moves (R168). -/
def departOwner (th : Thread) (e : MeetEntry) (cut : Bool) : Thread :=
  let c := th.clearForMeet
  ({ c with mult := BitVec.ofNat 32 (min e.mult (2 ^ 32 - 1)), wid := e.wid, fflags := e.flags,
            flagorg := match e.org with
              | some o => o.2
              | none => th.flagorg, mxcnt := mxOf e.counts }).setX e.d
    (meetStatus e.merged e.collision false false cut)

/-- An open entry departs (R168, R169, R171): its record is logged before the owner is woken; a TIMED entry stays departed
and a COUNTED one is free. `after` is a trap that the owner takes after the departure's effects, by R137 before one of the sum (R174). -/
def departEntry (s : State) (bank idx : Nat) (cut : Bool) (after : Option Trap) : State :=
  match tableOf s bank with
  | none => s
  | some t =>
    match t.entries.find idx with
    | none => s
    | some e =>
      if e.departed.isSome then s else
      let s1 := putTable s bank { t with entries := match e.kind with
        | .timed => t.entries.put idx { e with departed := some s.cycle }
        | .counted => t.entries.drop idx }
      let s2 := if e.merged then logRecord s1 bank e.wid (logWord (min e.mult (2 ^ 32 - 1)) idx e.serial true) else s1
      match s2.thread e.owner with
      | none => s2
      | some th =>
        if th.wait == some (.meet e.d bank idx) then
          let excess : List Trap := if 2 ^ 32 - 1 < e.mult then [{ cause := .meetMultOverflow, val := BitVec.ofNat 64 e.mult }] else []
          match after.toList ++ excess with
          | tr :: rest =>
            let th1 := departOwner th e cut
            (s2.putThread e.owner { th1 with pending := th1.pending ++ rest }).failWait e.owner tr
          | [] => s2.finishWait e.owner (fun x => departOwner x e cut)
        else s2

/-- Departs every open entry that a test selects, in entry-index order. -/
def departWhere (s : State) (bank : Nat) (cut : Bool) (p : MeetEntry → Bool) : State :=
  match tableOf s bank with
  | none => s
  | some t => (t.entries.filter (fun e => e.2.departed.isNone && p e.2)).foldl (fun st e => departEntry st bank e.1 cut none) s

/-- Every open entry of a COUNTED instance departs and its counter becomes free (R166). -/
def departInstance (s : State) (bank : Nat) (pc : Word) (lctx : BitVec 16) : State :=
  let s1 := departWhere s bank false (fun e => e.kind == .counted && e.key.pc == pc && e.key.lctx == lctx)
  match tableOf s1 bank with
  | none => s1
  | some t => putTable s1 bank { t with insts := t.insts.filter (fun i => !(i.pc == pc && i.lctx == lctx)) }

/-- A thread that merges ends as RETIRE x0 ends a thread (R170, R328). -/
def endMerged (s : State) (t : Nat) : State :=
  match s.thread t with
  | none => s
  | some th => endLeaf (s.removeThread t) th.lctx.toNat th.widself th.core

/-- A thread continues alone (R164, R168). -/
def meetAlone (s : State) (t : Nat) (d : Reg) (status : Word) : State :=
  match s.thread t with
  | none => s
  | some th => s.putThread t (((th.clearForMeet.setX d status).retire s.cycle).endWindow)

/-- The flags of an entry after one more arrival (R159): the FLAGORG of the least WIDSELF among those with flags. -/
def joinOrg (org : Option (Word × Word)) (th : Thread) : Option (Word × Word) :=
  if th.fflags = 0 then org
  else match org with
    | none => some (th.widself, th.flagorg)
    | some o => if th.widself.toNat < o.1.toNat then some (th.widself, th.flagorg) else some o

/-- An entry with one more arrival merged in (R164). -/
def mergeInto (e : MeetEntry) (th : Thread) : MeetEntry :=
  { e with mult := e.mult + th.mult.toNat, wid := if th.wid.toNat < e.wid.toNat then th.wid else e.wid,
           flags := e.flags ||| th.fflags, org := joinOrg e.org th,
           counts := (e.counts.zip (mxCounts th.mxcnt)).map (fun p => p.1 + p.2), merged := true }

/-- The entries of a set that are open with an equal hash, way by way: the first equal one, and the unequal ones before it,
whose collision bits are set (R164). -/
def scanSet (entries : SMap MeetEntry) (H : Word) (key : MeetKey) : List Nat → Option Nat × List Nat
  | [] => (none, [])
  | i :: rest =>
    match entries.find i with
    | some e =>
      if e.departed.isNone && e.hash == H then
        if e.key == key then (some i, [])
        else let r := scanSet entries H key rest; (r.1, i :: r.2)
      else scanSet entries H key rest
    | none => scanSet entries H key rest

/-- The way of a set that a new entry takes: the lowest free one, else the departed one that departed earliest (R164). -/
def freeWay (entries : SMap MeetEntry) (ways : List Nat) : Option Nat :=
  match ways.find? (fun i => (entries.find i).isNone) with
  | some i => some i
  | none => (ways.foldl (fun (best : Option (Nat × Nat)) i =>
      match (entries.find i).bind (·.departed) with
      | some c => match best with
        | some b => if c < b.2 then some (i, c) else some b
        | none => some (i, c)
      | none => best) none).map (·.1)

/-- Adds an arrival to its COUNTED instance, opening one if none is open (R166). -/
def countArrival (t : Table) (th : Thread) (target : Nat) : Option (Table × Bool) :=
  match t.insts.find? (fun i => i.pc == th.pc && i.lctx == th.lctx) with
  | some i =>
    let sum := i.sum + th.mult.toNat
    some ({ t with insts := t.insts.map (fun j => if j == i then { j with sum := sum } else j) }, decide (i.target ≤ sum))
  | none =>
    if 16 ≤ t.insts.length then none
    else some ({ t with insts := t.insts ++ [{ pc := th.pc, lctx := th.lctx, target := target, sum := th.mult.toNat }] },
      decide (target ≤ th.mult.toNat))

/-- An accepted arrival (R164): `n` is the window of a TIMED meet or the count of a COUNTED one. A deterministic launch's
MEET.c traps where it would go on alone with the full bit (R175). -/
def arrive (s : State) (t : Nat) (th : Thread) (bank : Nat) (ptr : Word) (d : Reg) (kind : MeetKind) (n : Nat) : Check State :=
  match tableOf s bank with
  | none => .ok s
  | some tab =>
    let det := ((s.launch th.lctx.toNat).map (·.hdr.det)).getD false
    let counted := kind == .counted
    match (if counted then countArrival tab th n else some (tab, false)) with
    | none => if det then trapOf .determinismViolation ptr else .ok (meetAlone s t d (meetStatus false false false true false))
    | some (tab1, full) =>
      let H := meetHash th (bank % 32)
      let key := matchKey th
      let ways := (List.range 4).map (fun w => meetSet H * 4 + w)
      let sc := scanSet tab1.entries H key ways
      let entries := sc.2.foldl (fun m i => match SMap.find m i with
        | some e => SMap.put m i { e with collision := true }
        | none => m) tab1.entries
      let collision := !sc.2.isEmpty
      let departAll := fun (st : State) => if counted && full then departInstance st bank th.pc th.lctx else st
      match sc.1 with
      | some i =>
        match SMap.find entries i with
        | none => .ok s
        | some e =>
          let s1 := putTable s bank { tab1 with entries := entries.put i (mergeInto e th) }
          let s2 := logRecord s1 bank th.wid (logWord th.mult.toNat i e.serial false)
          .ok (endMerged (departAll s2) t)
      | none =>
        let late := !counted && ways.any (fun i => match SMap.find entries i with
          | some e => e.departed.isSome && e.hash == H && e.key == key
          | none => false)
        if late then
          .ok (meetAlone (putTable s bank { tab1 with entries := entries }) t d (meetStatus false collision true false false))
        else
          match freeWay entries ways with
          | none =>
            if det && counted then trapOf .determinismViolation ptr
            else .ok (meetAlone (departAll (putTable s bank { tab1 with entries := entries })) t d
              (meetStatus false collision false true false))
          | some i =>
            let e : MeetEntry :=
              { hash := H, key := key, kind := kind, mult := th.mult.toNat, wid := th.wid, flags := th.fflags,
                org := joinOrg none th, counts := mxCounts th.mxcnt, owner := t, d := d,
                windowEnd := s.cycle / 16 + n, collision := collision, merged := false, serial := tab1.serial,
                departed := none }
            let s1 := putTable s bank { tab1 with entries := entries.put i e, serial := (tab1.serial + 1) % 2 ^ 21 }
            let s2 := s1.putThread t { th with wait := some (.meet d bank i), window := none, entered := .no }
            let s3 := departAll s2
            let waits : Bool := match s3.thread t with
              | some x => x.wait == some (.meet d bank i)
              | none => false
            .ok (if waits then s3.park t else s3)

/-- MEET.c and MEET.t (R163): the checks, the release of the thread's tiles, and the arrival. -/
def runMeet (s : State) (d a b : Reg) (kind : MeetKind) : Outcome :=
  runCheck s (fun th =>
    let det := ((s.launch th.lctx.toNat).map (·.hdr.det)).getD false
    let ptr := th.getX a
    if kind == .timed && det then trapOf .determinismViolation th.pc else
    match tableBank s th ptr with
    | .error e => .error e
    | .ok bank =>
      let raw := if kind = .timed then ((th.getX b).extractLsb' 0 16).toNat else ((th.getX b).extractLsb' 0 32).toNat
      let s1 := (s.putCore th.core ((s.core th.core).releaseTiles s.cur)).grantTiles th.core
      arrive s1 s.cur th bank ptr d kind (if raw = 0 then 1 else raw))

/-- MEET.c (R164). -/
def execMeetC (d a b : BitVec 5) (s : State) : Outcome := runMeet s d a b .counted

/-- MEET.t (R164). -/
def execMeetT (d a b : BitVec 5) (s : State) : Outcome := runMeet s d a b .timed

/-- MLIVE (R161). -/
def execMlive (d a : BitVec 5) (s : State) : Outcome :=
  runState s (fun th =>
    let m := th.getX a
    if liveOk m = false then .error { cause := .meetLiveMask, val := m }
    else
      let th' := { th with live := m.truncate 32 }.setX d (th.live.zeroExtend 64)
      .ok (s.putThread s.cur ((th'.retire s.cycle).endWindow)))

/-- MCLR (R173). -/
def execMclr (d a : BitVec 5) (s : State) : Outcome :=
  runCheck s (fun th =>
    match tableBank s th (th.getX a) with
    | .error e => .error e
    | .ok bank =>
      match tableOf s bank with
      | none => .ok s
      | some t =>
        let n := (t.entries.filter (fun e => e.2.departed.isNone)).length
        let s1 := departWhere s bank true (fun _ => true)
        let s2 := match tableOf s1 bank with
          | some t1 => putTable s1 bank { t1 with entries := [], insts := [] }
          | none => s1
        .ok (s2.retireX d (BitVec.ofNat 64 n)))

/-- MLOG (R172). -/
def execMlog (d a b : BitVec 5) (s : State) : Outcome :=
  runCheck s (fun th =>
    match tableBank s th (th.getX a) with
    | .error e => .error e
    | .ok bank =>
      match tableOf s bank with
      | none => .ok s
      | some t =>
        let old : Word := match t.log with
          | some l => BitVec.ofNat 64 (l.count + (if l.lost then 2 ^ 63 else 0))
          | none => 0
        let p := th.getX b
        if p = 0 then .ok ((putTable s bank { t with log := none }).retireX d old)
        else if p.extractLsb' 57 7 ≠ 8 ∨ p.extractLsb' 22 35 ≠ 0 ∨ p.extractLsb' 0 4 ≠ 0 then trapOf .spaceInvalid p
        else
          let lb := clusterOfCore th.core * 32 + (p.extractLsb' 17 5).toNat
          let bk := s.bank lb
          if bk.changes ≠ [] then stall
          else if bk.mode ≠ .scratch then trapOf .bankModeMismatch p
          else
            let start := lb * 2 ^ 17 + (p.extractLsb' 0 17).toNat
            .ok ((putTable s bank { t with log := some { start := start, count := 0, lost := false } }).retireX d old))

/-- MEET_WINDOW_END (R165): the TIMED entries of a table whose window has ended depart, in entry-index order. -/
def execMeetWindowEnd (bank : Nat) (s : State) : Outcome :=
  .next (departWhere s bank false (fun e => e.kind == .timed && decide (e.windowEnd ≤ s.cycle / 16)))

/-- MEET_ENTRY_FREE (R165): the entries that departed 256 rotations ago become free. -/
def execMeetEntryFree (bank : Nat) (s : State) : Outcome :=
  match tableOf s bank with
  | none => .next s
  | some t =>
    .next (putTable s bank { t with entries := t.entries.filter (fun e => match e.2.departed with
      | some c => decide (s.cycle / 16 < c / 16 + 256)
      | none => true) })

end Sys2Proof.Machine
end

