-- ==== Sys2Proof/Machine/Sig.lean ====
section
/-!
DEFINITION. The SIG group (14_copy): mailboxes (R263 to R265), barriers (R266 to R269), channels (R270, R271), BANKCFG
(R252), and the events that end a barrier's phase, change a bank's mode (R15) and post a held message (R258).
-/
namespace Sys2Proof.Machine

/-! ### Mailboxes -/

/-- Whether a handle names a slot of a live core (R9, R264). -/
def handleOk (s : State) (h : Word) : Bool :=
  h.extractLsb' 17 47 == 0 && decide ((h.extractLsb' 9 6).toNat < 36)
    && !(s.core (coreOfHandle h.toNat)).retired && !(s.cluster (clusterOfCore (coreOfHandle h.toNat))).retired

/-- SEND and SENDT (R264): `full` is what happens when the target's mailbox is full. -/
def runSend (s : State) (d a b : Reg) (full : Thread → State) : Outcome :=
  runState s (fun th =>
    let h := th.getX a
    if !handleOk s h then .error { cause := .mailboxInvalid, val := h }
    else if b = 31 then .error { cause := .reservedField, val := th.pc }
    else if mailFree s (coreOfHandle h.toNat) then
      .ok (deliverMail (s.retireX d 0) (coreOfHandle h.toNat)
        { slot := slotOfHandle h.toNat, m0 := th.getX b, m1 := th.getX (b + 1), copyOf := none })
    else .ok (full th))

/-- SEND: waits for a free entry (R264). -/
def execSend (d a b : BitVec 5) (s : State) : Outcome :=
  runSend s d a b (fun th => s.waitCur (.send (th.getX a).toNat (th.getX b) (th.getX (b + 1)) d))

/-- SENDT: a full mailbox writes 1 and sends nothing (R264). -/
def execSendt (d a b : BitVec 5) (s : State) : Outcome := runSend s d a b (fun _ => s.retireX d 1)

/-- WAITM (R265). -/
def execWaitm (d a : BitVec 5) (s : State) : Outcome :=
  runState s (fun th =>
    let n := mailCount s th.place.handle
    if 0 < n then .ok (s.retireX d (BitVec.ofNat 64 n))
    else .ok (s.parkCur (.waitm d (if th.getX a = 0 then none else some (s.cycle + (th.getX a).toNat)))))

/-- RECV (R265): takes the oldest entry, which frees it for a waiting SEND (R272). -/
def execRecv (d : BitVec 5) (s : State) : Outcome :=
  runState s (fun th =>
    match mailOldest s th.place.handle with
    | none => .ok (s.parkCur (.recv d))
    | some m =>
      let c := s.core th.core
      let s1 := s.putCore th.core { c with mailbox := removeFirstMail m.slot c.mailbox }
      let th' := ((th.setX d m.m0).setX (d + 1) m.m1).retire s.cycle
      .ok (serviceSenders 33 (s1.putThread s.cur th'.endWindow) th.core))

/-- PEEKM (R265). -/
def execPeekm (d : BitVec 5) (s : State) : Outcome :=
  runState s (fun th => .ok (s.retireX d (BitVec.ofNat 64 (mailCount s th.place.handle))))

/-! ### Barriers -/

/-- The barrier that X[a] names in the issuer's cluster (R268). -/
def barrierId (th : Thread) (a : Reg) : Nat := ((th.getX a).extractLsb' 0 4).toNat

/-- The trap of a barrier that cannot take an operation. -/
def barrierMisuse (id : Nat) : Trap := { cause := .barrierMisuse, val := BitVec.ofNat 64 id }

/-- The lesser of two contributors: by WID, then by handle (R269). -/
def lowerContributor (o : Option (Word × Nat × Nat)) (x : Word × Nat × Nat) : Option (Word × Nat × Nat) :=
  match o with
  | none => some x
  | some y => if x.1.toNat < y.1.toNat ∨ (x.1 = y.1 ∧ x.2.1 < y.2.1) then some x else some y

/-- Arrive (R268, R19). -/
def Barrier.arrive (b : Barrier) (t : Nat) (th : Thread) (id : Nat) : Except Trap Barrier :=
  let k := th.mult.toNat
  if b.n < b.arrived + k then .error (barrierMisuse id)
  else
    let f := th.fflags &&& b.c
    .ok { b with arrived := b.arrived + k, flags := b.flags ||| f,
                 lowest := if f = 0 then b.lowest else lowerContributor b.lowest (th.wid, th.place.handle, t) }

/-- The shape of a barrier instruction: a barrier with N = 0 traps (R268). -/
def runBarrier (s : State) (a : Reg) (k : Thread → Nat → Nat → Barrier → Except Trap State) : Outcome :=
  runState s (fun th =>
    let id := barrierId th a
    let cl := clusterOfCore th.core
    let b := s.barrier cl id
    if b.n = 0 then .error (barrierMisuse id) else k th cl id b)

/-- The result of a phase: its parity and the last merged flags (R268). -/
def phaseWord (q : Bool) (flags : BitVec 5) : Word := BitVec.ofNat 64 ((if q then 32 else 0) + flags.toNat)

/-- BARA (R268). -/
def execBara (d a : BitVec 5) (s : State) : Outcome :=
  runBarrier s a (fun th cl id b =>
    (b.arrive s.cur th id).map (fun b' => (s.putBarrier cl id b').retireX d (phaseWord b.parity 0)))

/-- BARW (R268). -/
def execBarw (d a b : BitVec 5) (s : State) : Outcome :=
  runBarrier s a (fun th cl id br =>
    let q := (th.getX b).getLsbD 0
    if q != br.parity then .ok (s.retireX d (phaseWord q br.last)) else .ok (s.parkCur (.barw d cl id q)))

/-- BAR: arrives, then waits for the phase (R268). -/
def execBar (d a : BitVec 5) (s : State) : Outcome :=
  runBarrier s a (fun th cl id b =>
    (b.arrive s.cur th id).map (fun b' => (s.putBarrier cl id b').parkCur (.barw d cl id b.parity)))

/-- BAREX: applied after this cycle's completion check (R268). -/
def execBarex (d a b : BitVec 5) (s : State) : Outcome :=
  runBarrier s a (fun th cl id _ => .ok (s.waitCur (.barex d cl id ((th.getX b).extractLsb' 0 32).toNat)))

/-- Whether a thread waits on a barrier, in BARW or BAR, or with a BAREX not yet applied. -/
def waitsOnBarrier (th : Thread) (cl id : Nat) : Bool :=
  match th.wait with
  | some (.barw _ c i _) => c == cl && i == id
  | some (.barex _ c i _) => c == cl && i == id
  | _ => false

/-- BARCFG (R267). -/
def execBarcfg (d a b : BitVec 5) (s : State) : Outcome :=
  runState s (fun th =>
    let va := th.getX a
    let vb := th.getX b
    if th.mode = .user then .error { cause := .privileged, val := th.pc }
    else if va.extractLsb' 4 28 ≠ 0 ∨ vb.extractLsb' 37 27 ≠ 0 then .error { cause := .reservedField, val := th.pc }
    else
      let id := barrierId th a
      let cl := clusterOfCore th.core
      let br := s.barrier cl id
      if br.arrived ≠ 0 ∨ br.pending ≠ br.e0 ∨ s.threads.any (fun p => waitsOnBarrier p.2 cl id) = true then
        .error (barrierMisuse id)
      else
        let e0 := (va.extractLsb' 32 32).toNat
        let br' : Barrier :=
          { n := (vb.extractLsb' 0 32).toNat, e0 := e0, c := vb.extractLsb' 32 5, parity := false, arrived := 0, pending := e0,
            flags := 0, lowest := none, last := br.last }
        .ok ((s.putBarrier cl id br').retireX d (BitVec.ofNat 64 br.n)))

/-- A waiter of a phase that completed (R268, R269): its result, its flags, and BARRIER_FP_COLLECTED if it is the one. -/
def endPhaseWait (s : State) (t : Nat) (d : Reg) (q : Bool) (flags : BitVec 5) (collects : Bool) : State :=
  match s.thread t with
  | none => s
  | some th =>
    let eff := fun (x : Thread) => (x.setX d (phaseWord q flags)).raise x.pc flags
    if collects then
      let th' := eff th
      (s.putThread t th').failWait t { cause := .barrierFpCollected, val := th'.flagorg }
    else s.finishWait t eff

/-- The BAREX amounts received in a cycle are applied after its completion check (R268). -/
def applyBarex (s : State) (cl id : Nat) : State :=
  s.threads.foldl (fun st p =>
    match p.2.wait with
    | some (.barex d c i n) =>
      if c = cl ∧ i = id then
        let b := st.barrier cl id
        (st.putBarrier cl id { b with pending := b.pending + n }).finishWait p.1 (fun x => x.setX d (phaseWord b.parity 0))
      else st
    | _ => st) s

/-- Whether a barrier's phase completes: every participant has arrived and every byte is in (R268). -/
def Barrier.complete (b : Barrier) : Bool := b.n != 0 && b.arrived == b.n && b.pending == 0

/-- The end of a phase (R268, R269). -/
def endPhase (s : State) (cl id : Nat) : State :=
  let b := s.barrier cl id
  let s1 := s.putBarrier cl id { b with last := b.flags, arrived := 0, flags := 0, lowest := none, pending := b.e0,
                                        parity := !b.parity }
  let who := if b.flags = 0 then none else b.lowest.map (·.2.2)
  s.threads.foldl (fun st p =>
    match p.2.wait with
    | some (.barw d c i q) =>
      if c = cl ∧ i = id ∧ q = b.parity then endPhaseWait st p.1 d q b.flags (who == some p.1) else st
    | _ => st) s1

/-- BARRIER_PHASE_COMPLETE (R268): the check at the end of a cycle, then this cycle's BAREX amounts. -/
def execBarrierPhaseComplete (cl id : Nat) (s : State) : Outcome :=
  let s1 := if (s.barrier cl id).complete then endPhase s cl id else s
  .next (applyBarex s1 cl id)

/-! ### Channels -/

/-- The FIFO bank that a Q instruction names (R270): its number and channel. -/
def channelOf (s : State) (th : Thread) (ptr : Word) : Check (Nat × Channel) :=
  let cl := clusterOfCore th.core
  match spaceOf { cxOf s th with mode := .supervisor } cl .load false ptr with
  | .ok (.bank c b _ _) =>
    if c ≠ cl then trapOf .channelMisuse ptr
    else
      let bk := s.bank (cl * 32 + b)
      if bk.changes ≠ [] then stall else
      match bk.mode with
      | .fifo ch => .ok (cl * 32 + b, ch)
      | _ => trapOf .channelMisuse ptr
  | _ => trapOf .spaceInvalid ptr

/-- Writes the channel of a bank. -/
def putChannel (s : State) (bank : Nat) (c : Channel) : State := s.putBank bank { s.bank bank with mode := .fifo c }

/-- The pointer of a stage: the CLUSTER pointer of its first byte, with the window of the program's pointer (R270; log 20). -/
def stagePtr (ptr : Word) (c : Channel) (stage : Nat) : Word :=
  0x1000000000000000 ||| (ptr &&& 0x0E000000003E0000) ||| BitVec.ofNat 64 (stage * stageBytes c.size)

/-- The writer takes stage wn (R271): RESERVED, and held until its QPUB. -/
def Channel.reserve (c : Channel) : Channel :=
  { c with stages := c.stages.set c.wn .reserved, wheld := some c.wn, wn := (c.wn + 1) % c.stages.length }

/-- The reader takes stage rn (R271): ACQUIRED, and held until its QREL. -/
def Channel.acquire (c : Channel) : Channel :=
  { c with stages := c.stages.set c.rn .acquired, rheld := some c.rn, rn := (c.rn + 1) % c.stages.length }

/-- A writer that waits in QRES takes stage wn when it is FREE (R271). -/
def wakeWriter (s : State) (bank : Nat) : State :=
  match (s.bank bank).mode with
  | .fifo c =>
    if c.stages[c.wn]? ≠ some .free then s else
    match s.threads.find? (fun p => match p.2.wait with
        | some (.qres _ b _) => b == bank
        | _ => false) with
    | some (t, th) =>
      match th.wait with
      | some (.qres d _ ptr) =>
        let s1 := putChannel s bank c.reserve
        s1.finishWait t (fun x => x.setX d (stagePtr ptr c c.wn))
      | _ => s
    | none => s
  | _ => s

/-- A reader that waits in QACQ takes stage rn when it is PUBLISHED (R271). -/
def wakeReader (s : State) (bank : Nat) : State :=
  match (s.bank bank).mode with
  | .fifo c =>
    if c.stages[c.rn]? ≠ some .published then s else
    match s.threads.find? (fun p => match p.2.wait with
        | some (.qacq _ b _) => b == bank
        | _ => false) with
    | some (t, th) =>
      match th.wait with
      | some (.qacq d _ ptr) =>
        let s1 := putChannel s bank c.acquire
        s1.finishWait t (fun x => x.setX d (stagePtr ptr c c.rn))
      | _ => s
    | none => s
  | _ => s

/-- QRES (R271). -/
def execQres (d a : BitVec 5) (s : State) : Outcome :=
  runCheck s (fun th =>
    let ptr := th.getX a
    let me := s.cur
    match channelOf s th ptr with
    | .error e => .error e
    | .ok (bank, c) =>
      if (c.writer ≠ .unbound ∧ c.writer ≠ .thread me) ∨ c.wheld ≠ none then trapOf .channelMisuse ptr
      else
        let c1 := { c with writer := .thread me }
        if c.stages[c.wn]? = some .free then .ok ((putChannel s bank c1.reserve).retireX d (stagePtr ptr c c.wn))
        else .ok ((putChannel s bank c1).parkCur (.qres d bank ptr)))

/-- QPUB (R271). -/
def execQpub (d a : BitVec 5) (s : State) : Outcome :=
  runCheck s (fun th =>
    let ptr := th.getX a
    match channelOf s th ptr with
    | .error e => .error e
    | .ok (bank, c) =>
      match c.wheld with
      | some i => if c.writer = .thread s.cur then
          .ok (wakeReader ((putChannel s bank { c with stages := c.stages.set i .published, wheld := none }).retireX d 0) bank)
        else trapOf .channelMisuse ptr
      | none => trapOf .channelMisuse ptr)

/-- QACQ (R271). -/
def execQacq (d a : BitVec 5) (s : State) : Outcome :=
  runCheck s (fun th =>
    let ptr := th.getX a
    let me := s.cur
    match channelOf s th ptr with
    | .error e => .error e
    | .ok (bank, c) =>
      if (c.reader ≠ none ∧ c.reader ≠ some me) ∨ c.rheld ≠ none then trapOf .channelMisuse ptr
      else
        let c1 := { c with reader := some me }
        if c.stages[c.rn]? = some .published then .ok ((putChannel s bank c1.acquire).retireX d (stagePtr ptr c c.rn))
        else .ok ((putChannel s bank c1).parkCur (.qacq d bank ptr)))

/-- QREL (R271). -/
def execQrel (d a : BitVec 5) (s : State) : Outcome :=
  runCheck s (fun th =>
    let ptr := th.getX a
    match channelOf s th ptr with
    | .error e => .error e
    | .ok (bank, c) =>
      match c.rheld with
      | some i => if c.reader = some s.cur then
          .ok (wakeWriter ((putChannel s bank { c with stages := c.stages.set i .free, rheld := none }).retireX d 0) bank)
        else trapOf .channelMisuse ptr
      | none => trapOf .channelMisuse ptr)

/-! ### Bank configuration -/

/-- Whether a configuration word is one that BANKCFG accepts (R249, R252). -/
def bankWordOk (w : Word) : Bool :=
  w.extractLsb' 14 50 == 0
    && (if w.extractLsb' 0 2 == 2 then
          decide ((w.extractLsb' 2 4).toNat ≤ 10)
            && decide (((w.extractLsb' 6 6).toNat + 1) * stageBytes (w.extractLsb' 2 4).toNat ≤ 2 ^ 17)
        else w.extractLsb' 2 12 == 0)

/-- BANKCFG (R252): completes when the bank has entered its new mode. DESIGN CHOICE (log 78): a user-mode thread of launch context 0, which has
no launch header, has the bank mask 0. -/
def execBankcfg (d a b : BitVec 5) (s : State) : Outcome :=
  runState s (fun th =>
    let ptr := th.getX a
    let cl := clusterOfCore th.core
    match spaceOf { cxOf s th with mode := .supervisor } cl .load false ptr with
    | .ok (.bank c bk off win) =>
      if c ≠ cl ∨ off ≠ 0 ∨ win ≠ 0 then .error { cause := .spaceInvalid, val := ptr }
      else if th.mode = .user ∧ (match s.launch th.lctx.toNat with | some l => l.hdr.banks | none => (0 : BitVec 32)).getLsbD bk = false then
        .error { cause := .bankModeMismatch, val := ptr }
      else if !bankWordOk (th.getX b) then .error { cause := .reservedField, val := th.pc }
      else
        let n := cl * 32 + bk
        let x := s.bank n
        .ok ((s.putBank n { x with changes := x.changes ++ [{ word := th.getX b, tid := s.cur, seq := s.seq }] }).waitCur (.bankcfg d n))
    | _ => .error { cause := .spaceInvalid, val := ptr })

/-- Whether a location lies in a bank. -/
def Loc.inBank (l : Loc) (bank : Nat) : Bool :=
  match l with
  | .bank k => k / 2 ^ 17 == bank
  | _ => false

/-- Whether a head has an access to a bank outstanding. -/
def HeadOp.usesBank (h : HeadOp) (bank : Nat) : Bool :=
  match h with
  | .load _ _ _ _ loc _ => loc.inBank bank
  | .store _ _ _ loc _ => loc.inBank bank
  | .vload _ lanes => lanes.any (fun l => l.loc.inBank bank)
  | .vstore lanes _ => lanes.any (fun l => l.loc.inBank bank)
  | .mst _ _ lanes _ => lanes.any (fun l => l.loc.inBank bank)
  | _ => false

/-- The multicast mask of a request (R253). -/
def CopyReq.mask (r : CopyReq) : BitVec 32 := r.w3.extractLsb' 32 32
/-- How many destinations the multicast mask gives (R253, R257). -/
def CopyReq.group (r : CopyReq) : Nat :=
  if r.mask = 0 then 1 else ((List.range 32).filter (fun i => r.mask.getLsbD i)).length
/-- The banks of a job's FIFO group, the last of those that it names. -/
def CopyJob.groupBanks (j : CopyJob) : List Nat := j.banks.drop (j.banks.length - j.req.group)

/-- Whether a request is a TILE_LOOP with FIFO publish (R272). -/
def CopyReq.isLoopPublish (r : CopyReq) : Bool := r.w3.extractLsb' 0 4 == 2 && r.w3.extractLsb' 4 2 == 3

/-- An issuer that asked for it takes COPY_FAULT at its next boundary or its wake; one that is gone leaves a log record
(R259). -/
def copyFault (s : State) (r : CopyReq) (addr : Word) : State :=
  if !r.w3.getLsbD 15 then s else
  match s.thread r.tid with
  | some th => s.putThread r.tid { th with pending := th.pending ++ [{ cause := .copyFault, val := addr }] }
  | none => s.logEvent .copyFault r.home addr r.w3

/-- The TILE_LOOP requests with FIFO publish whose group holds a bank, of those that the engine accepted before a change of the bank, end
at once (R272). -/
def endLoops (s : State) (bank seq : Nat) : State :=
  let cl := bank / 32
  let k := s.cluster cl
  let hit := fun (j : CopyJob) => j.req.isLoopPublish && j.groupBanks.contains bank && decide (j.seq < seq)
  let s1 := s.putCluster cl { k with jobs := k.jobs.filter (fun j => !hit j) }
  (k.jobs.filter hit).foldl (fun st j =>
    copyFault st j.req ((0x1000000000000000 : Word) ||| (((j.req.w3.extractLsb' 10 5).zeroExtend 64 : Word) <<< 17))) s1

/-- Whether an access, or a copy request accepted before a change of the bank, still uses it (R15 step 2). -/
def bankInUse (s : State) (bank seq : Nat) : Bool :=
  s.threads.any (fun p => (p.2.head.map (fun h => h.op.usesBank bank)).getD false)
    || s.clusters.any (fun c => c.2.jobs.any (fun j => decide (j.seq < seq) && j.banks.contains bank))

/-- The old mode's state is released (R15 step 3): channel waiters trap, meet entries depart, and logs in the bank unbind
(R172). -/
def releaseMode (s : State) (bank : Nat) (stays : Bool) : State :=
  match (s.bank bank).mode with
  | .fifo _ => s.threads.foldl (fun st p =>
      match p.2.wait with
      | some (.qres _ b ptr) => if b = bank then st.failWait p.1 { cause := .channelMisuse, val := ptr } else st
      | some (.qacq _ b ptr) => if b = bank then st.failWait p.1 { cause := .channelMisuse, val := ptr } else st
      | _ => st) s
  | .meet _ => departWhere s bank true (fun _ => true)
  | .scratch =>
    if stays then s else
    let k := s.cluster (bank / 32)
    s.putCluster (bank / 32) { k with banks := k.banks.map (fun p =>
      match p.2.mode with
      | .meet t => match t.log with
        | some l => if l.start / 2 ^ 17 = bank then (p.1, { p.2 with mode := .meet { t with log := none } }) else p
        | none => p
      | _ => p) }
  | .cache => s

/-- The mode that a configuration word gives a bank (R249, R252, R270): `issuer` is the number of the issuing thread. -/
def modeOfWord (w : Word) (issuer : Option Nat) : BankMode :=
  match (w.extractLsb' 0 2).toNat with
  | 0 => .cache
  | 1 => .scratch
  | 2 => .fifo
    { size := (w.extractLsb' 2 4).toNat, writer := if w.getLsbD 12 then .copyEngine else .unbound,
      reader := if w.getLsbD 13 then issuer else none,
      stages := List.replicate ((w.extractLsb' 6 6).toNat + 1) .free, wn := 0, rn := 0, wheld := none, rheld := none }
  | _ => .meet { entries := [], serial := 0, insts := [], log := none }

/-- BANK_MODE_CHANGE (R15): the oldest accepted change of a bank. Loops that publish into it end; while another accepted
access or request uses it, it waits; then the old state is released and the bank is zeroed and enters its new mode. The records of member
logs that waited are judged in it. -/
def execBankModeChange (bank : Nat) (s : State) : Outcome :=
  match (s.bank bank).changes with
  | [] => .next s
  | { word := w, tid := t, seq := n } :: rest =>
    let s1 := endLoops s bank n
    if bankInUse s1 bank n then .next s1
    else
      let old := (s1.bank bank).cfg
      let s2 := releaseMode s1 bank (w.extractLsb' 0 2 == 1)
      let issuer := (s2.thread t).map (fun _ => t)
      let lo := bank * 2 ^ 17
      let s3 := { s2 with sram := s2.sram.filter (fun c => !(decide (lo ≤ c.1) && decide (c.1 < lo + 2 ^ 17))),
                          badSram := s2.badSram.filter (fun c => c.1 * 8 / 2 ^ 17 != bank) }
      let s4 := s3.putBank bank { s3.bank bank with mode := modeOfWord w issuer, cfg := if w.extractLsb' 0 2 = 0 then 0 else w, changes := rest }
      .next (flushLate (match s4.thread t with
        | some th => match th.wait with
          | some (.bankcfg d b) => if b = bank then s4.finishWait t (fun x => x.setX d old) else s4
          | _ => s4
        | none => s4))

/-- HELD_MAILBOX_POSTING (R258): a held message is enqueued once an entry is free. -/
def execHeldMailboxPosting (core : Nat) (s : State) : Outcome :=
  match (s.core core).held with
  | [] => .next s
  | m :: rest =>
    if !mailFree s core then .next s
    else .next (deliverMail (s.putCore core { s.core core with held := rest }) core m)

end Sys2Proof.Machine
end

