-- ==== Sys2Proof/Machine/Copy.lean ====
section
/-!
DEFINITION. The copy engine (R253 to R261): CPY and CPYT, the acceptance of a request with its checks and its ownership of
destination lines (R23), and the transfers and iterations that move bytes, post signals and report faults.
-/
namespace Sys2Proof.Machine

/-! ### The words of a request (R253) -/

def CopyReq.kind (r : CopyReq) : Nat := (r.w3.extractLsb' 0 4).toNat
def CopyReq.signal (r : CopyReq) : Nat := (r.w3.extractLsb' 4 2).toNat
def CopyReq.barrierNo (r : CopyReq) : Nat := (r.w3.extractLsb' 6 4).toNat
def CopyReq.bankNo (r : CopyReq) : Nat := (r.w3.extractLsb' 10 5).toNat
/-- The cluster of the issuer. -/
def CopyReq.cluster (r : CopyReq) : Nat := clusterOfCore (coreOfHandle r.home)
/-- The engine translates with the issuer's context and walks (R254, R259). -/
def CopyReq.cx (r : CopyReq) : Cx :=
  { core := none, die := dieOfCore (coreOfHandle r.home), mode := r.mode, asid := r.csrs.asid, ptbase := r.csrs.ptbase,
    privbase := r.privbase }
/-- The translation of an accepted request, whose walks wait for no line of a later one (R41; log 23). -/
def CopyJob.cx (j : CopyJob) : Cx := { j.req.cx with copies := some j.seq }

/-- A tensor descriptor (R250): `step` is the loop step dimension, `stride` starts with the element size. -/
structure Tensor where
  base   : Word
  extent : List Nat
  stride : List Nat
  size   : Nat
  step   : Nat
  count  : Nat
  shape  : List Nat
  fill   : Word
  amount : Nat
  deriving DecidableEq, Repr

/-- The descriptor in its eight words (R250). DESIGN CHOICE (log 64): its strides and its loop step amount are read unsigned, of which the
spec says nothing. -/
def tensorOf (l : List Word) : Tensor :=
  let w := fun i => l.getD i 0
  let h := fun i k => ((w i).extractLsb' (32 * k) 32).toNat
  let size := ((w 4).extractLsb' 32 8).toNat
  { base := w 0, extent := [h 1 0, h 1 1, h 2 0, h 2 1], stride := [size, h 3 0, h 3 1, h 4 0], size := size,
    step := ((w 4).extractLsb' 40 8).toNat, count := ((w 4).extractLsb' 48 16).toNat,
    shape := (List.range 4).map (fun i => ((w 5).extractLsb' (16 * i) 16).toNat), fill := w 6, amount := (w 7).toNat }

/-- The bytes of a tile. -/
def Tensor.tileBytes (t : Tensor) : Nat := t.shape.foldl (· * ·) t.size

/-- The checks of R254 on a descriptor. -/
def Tensor.ok (t : Tensor) (kind : Nat) : Bool :=
  [1, 2, 4, 8].contains t.size && t.shape.all (· != 0) && decide (t.step ≤ 3) && decide (t.tileBytes ≤ 2 ^ 17)
    && (kind != 2 || t.count != 0)

/-- The origin of an iteration (R255). -/
def tileOrigin (t : Tensor) (w2 : Word) (i : Nat) : List Nat :=
  (List.range 4).map (fun k => (w2.extractLsb' (16 * k) 16).toNat + if k = t.step then i * t.amount else 0)

/-- Sums of products of two lists. -/
def dot (a b : List Nat) : Nat := ((a.zip b).map (fun p => p.1 * p.2)).foldl (· + ·) 0

/-- One past the greatest offset from the base that an in-extent element of an iteration reads (R254). -/
def tileReach (t : Tensor) (origin : List Nat) : Nat :=
  if (origin.zip t.extent).all (fun p => decide (p.1 < p.2)) then
    dot (((origin.zip t.shape).zip t.extent).map (fun p => min (p.1.1 + p.1.2) p.2 - 1)) t.stride + t.size
  else 0

/-- How many iterations a request has. -/
def CopyReq.iterations (r : CopyReq) (desc : List Word) : Nat := if r.kind = 2 then (tensorOf desc).count else 1

/-- The destination bytes of one transfer or iteration. -/
def CopyReq.bytes (r : CopyReq) (desc : List Word) : Nat :=
  if r.kind = 1 ∨ r.kind = 2 then (tensorOf desc).tileBytes else (r.w2.extractLsb' 0 32).toNat

/-! ### Acceptance (R254) -/

/-- The trap of a request that fails a check. -/
def copyInvalid {α : Type} (r : CopyReq) : Check α := trapOf .copyRequestInvalid r.w3

/-- A source or destination of a request that lies in no FIFO group: its space, its bank's mode and the bank's end. It answers
the bank that it names, if it names one; a bank whose mode change is in progress makes the request wait (R15, R272). -/
def checkEnd (s : State) (r : CopyReq) (kind : AccessKind) (ptr : Word) (len : Nat) : Check (List Nat) :=
  match spaceOf r.cx r.cluster kind false ptr with
  | .ok (.global _) => .ok []
  | .ok (.priv sum) => if 2 ^ 52 ≤ sum then copyInvalid r else .ok []
  | .ok (.bank c b off _) =>
    let n := c * 32 + b
    if 2 ^ 17 < off + len then copyInvalid r
    else if (s.bank n).changes ≠ [] then stall
    else if (s.bank n).mode = .scratch then .ok [n]
    else copyInvalid r
  | _ => copyInvalid r

/-- Reads a word of the descriptor; one that cannot be read makes the request invalid. -/
def descWord (s : State) (r : CopyReq) (ptr : Word) : Check Word :=
  match spaceOf r.cx r.cluster .load false ptr with
  | .ok (.remote _ _) => copyInvalid r
  | _ =>
    match checkAccess s r.cx r.home .load .scalar false ptr 8 8 with
    | .error none => stall
    | .error (some _) => copyInvalid r
    | .ok a =>
      let tagged := match a.loc with
        | .dram pa => a.lpage && s.tag pa != 0
        | _ => false
      if lineHeld s a.loc 8 then stall
      else if locBad s a.loc 8 || tagged then copyInvalid r
      else .ok (BitVec.ofNat 64 (readLoc s a.loc 8))

/-- Reads the words of the descriptor from the n-th on. -/
def descWords (s : State) (r : CopyReq) (ptr : Word) : Nat → Check (List Word)
  | 0 => .ok []
  | n + 1 => do
    let w ← descWord s r ptr
    let rest ← descWords s r (ptr + 8) n
    .ok (w :: rest)

/-- The descriptor's words of a TILE or TILE_LOOP, none for another kind. -/
def CopyReq.descriptor (s : State) (r : CopyReq) : Check (List Word) :=
  if r.kind = 1 ∨ r.kind = 2 then
    if r.w0.toNat % 64 ≠ 0 then copyInvalid r else descWords s r r.w0 8
  else .ok []

/-- The source's checks: the banks it names. -/
def checkSource (s : State) (r : CopyReq) (desc : List Word) : Check (List Nat) :=
  let t := tensorOf desc
  match r.kind with
  | 0 => checkEnd s r .load r.w0 (r.bytes desc)
  | 3 => .ok []
  | _ => checkEnd s r .load t.base
      (((List.range (r.iterations desc)).map (fun i => tileReach t (tileOrigin t r.w2 i))).foldl max 0)

/-- The pointer of bank b0 + j of a group that starts at a CLUSTER pointer (R257). -/
def groupPtr (ptr : Word) (j : Nat) : Word := ptr + BitVec.ofNat 64 (j * 2 ^ 17)

/-- The stage count and the stage size of a mode in which the copy engine writes a FIFO (R247, R248). -/
def engineChannel : BankMode → Option (Nat × Nat)
  | .fifo c => if c.writer = .copyEngine then some (c.stages.length, stageBytes c.size) else none
  | _ => none

/-- The mode that a bank will have when the changes that it has accepted are done; a BANKCFG into FIFO mode that has not finished counts as
FIFO (R248). -/
def Bank.willBe (b : Bank) : BankMode :=
  match b.changes.getLast? with
  | some c => modeOfWord c.word none
  | none => b.mode

/-- The group of a request with FIFO publish (R247, R248, R254). -/
def checkGroup (s : State) (r : CopyReq) (desc : List Word) : Check (List Nat) :=
  let banks := (List.range r.group).map (fun j => r.cluster * 32 + r.bankNo + j)
  if r.kind = 3 ∨ r.w1 ≠ (0x1000000000000000 : Word) ||| BitVec.ofNat 64 (r.bankNo * 2 ^ 17) ∨ 32 < r.bankNo + r.group then
    copyInvalid r
  else
    let chans := banks.map (fun n => engineChannel (s.bank n).willBe)
    if chans.all (fun c => match c, chans.head? with
        | some x, some (some y) => x.1 == y.1 && decide (r.bytes desc ≤ x.2)
        | _, _ => false) then .ok banks
    else copyInvalid r

/-- The destination's checks: the banks it names. -/
def checkDest (s : State) (r : CopyReq) (desc : List Word) : Check (List Nat) :=
  let len := r.bytes desc * r.iterations desc
  if r.signal = 3 then checkGroup s r desc
  else if r.mask = 0 then checkEnd s r .store r.w1 len
  else if r.w1.extractLsb' 60 4 ≠ 1 ∨ 32 < (r.w1.extractLsb' 17 5).toNat + r.group then copyInvalid r
  else do
    let l ← (List.range r.group).mapM (fun j => checkEnd s r .store (groupPtr r.w1 j) len)
    .ok l.flatten

/-- The checks of R254: the descriptor's words and the banks named, the request's trap, or `none` while it must wait. -/
def checkRequest (s : State) (r : CopyReq) : Check (List Word × List Nat) := do
  require (decide (r.kind ≤ 3) && (r.signal == 2 || r.barrierNo == 0) && (r.signal == 3 || r.bankNo == 0)
    && ((r.kind != 0 && r.kind != 3) || r.w2.extractLsb' 32 32 == 0)) .copyRequestInvalid r.w3
  require (r.signal != 2 || (s.barrier r.cluster r.barrierNo).n != 0) .copyRequestInvalid r.w3
  let desc ← r.descriptor s
  require ((r.kind != 1 && r.kind != 2) || (tensorOf desc).ok r.kind) .copyRequestInvalid r.w3
  let src ← checkSource s r desc
  let dst ← checkDest s r desc
  .ok (desc, src ++ dst)

/-! ### The engine's accesses -/

/-- The engine's access of one byte: a byte of the request's banks without the bank's mode, because they were judged at acceptance and
stay in their modes, and any other as the issuer's access (R259). -/
def copyAcc (s : State) (j : CopyJob) (kind : AccessKind) (ptr : Word) : Check Acc :=
  let r := j.req
  match spaceOf r.cx r.cluster kind false ptr with
  | .ok (.bank c b off _) =>
    if !j.banks.contains (c * 32 + b) then checkAccess s j.cx r.home kind .scalar false ptr 1 1
    else if watched s (coreOfHandle r.home) ptr 1 then trapOf .debugWatch ptr
    else .ok { ptr := ptr, loc := .bank (bankKey c b off), hit := none, win := 0 }
  | .ok (.remote _ _) => trapOf .spaceInvalid ptr
  | _ => checkAccess s j.cx r.home kind .scalar false ptr 1 1

/-- The destination pointers of an iteration that has no FIFO publish. -/
def CopyReq.dests (r : CopyReq) (desc : List Word) (i : Nat) : List Word :=
  let ptr := r.w1 + BitVec.ofNat 64 (i * r.bytes desc)
  (List.range r.group).map (groupPtr ptr)

/-- The ranges of the lines that n bytes at a destination pointer touch, page by page; bytes that no translation reaches have
none. -/
def ownRanges (s : State) (j : CopyJob) (iter : Nat) : Nat → Word → Nat → List Owned
  | 0, _, _ => []
  | fuel + 1, ptr, n =>
    if n = 0 then [] else
    match copyAcc s j .store ptr with
    | .ok a =>
      match a.loc with
      | .bank key => [{ iter := iter, dram := false, start := key, len := n }]
      | .dram pa =>
        let k := min n (65536 - pa % 65536)
        { iter := iter, dram := true, start := pa, len := k } :: ownRanges s j iter fuel (ptr + BitVec.ofNat 64 k) (n - k)
      | _ => []
    | .error _ =>
      let k := min n (65536 - ptr.toNat % 65536)
      ownRanges s j iter fuel (ptr + BitVec.ofNat 64 k) (n - k)

/-- The lines that an accepted request owns (R23); under FIFO publish the stages' RESERVED state keeps others out. -/
def ownAll (s : State) (j : CopyJob) : List Owned :=
  let r := j.req
  if r.signal = 3 then [] else
  let n := r.bytes j.desc
  ((List.range (r.iterations j.desc)).map (fun i =>
    ((r.dests j.desc i).map (fun p => ownRanges s j i (n / 65536 + 3) p n)).flatten)).flatten

/-- Whether the translation of a destination of an iteration waits for a line of an earlier request (R23, R41). -/
def destWaits (s : State) (j : CopyJob) (i : Nat) : Bool :=
  let n := j.req.bytes j.desc
  j.req.signal != 3 && (j.req.dests j.desc i).any (fun p =>
    (List.range (n / 65536 + 2)).any (fun k =>
      let q := if k = 0 then p else (p &&& ~~~ 0xFFFF) + BitVec.ofNat 64 (65536 * k)
      (k == 0 || decide ((q - p).toNat < n)) && (match copyAcc s j .store q with
        | .error none => true
        | _ => false)))

/-! ### CPY and CPYT (R261) -/

/-- The request of a thread (R253, R261). -/
def copyReqOf (s : State) (th : Thread) (w : List Word) : CopyReq :=
  { tid := s.cur, home := th.place.handle, fifo := th.core, lctx := th.lctx.toNat, w0 := w.getD 0 0, w1 := w.getD 1 0, w2 := w.getD 2 0, w3 := w.getD 3 0,
    mode := th.mode, csrs := s.csrsOf th, privbase := th.privbase }

/-- Pushes a request into the core's command FIFO of 16 entries, or waits for a free entry (R10, R261). -/
def pushCopy (s : State) (th : Thread) (d : Reg) (w : List Word) : State :=
  let c := s.core th.core
  let r := copyReqOf s th w
  if 16 ≤ c.fifo.length then s.waitCur (.copy d (some r))
  else (s.putCore th.core { c with fifo := c.fifo ++ [r] }).waitCur (.copy d none)

/-- The thread of a core, other than `but`, that waits for an entry of the command FIFO, with the lowest handle (log 65): its number, its
destination and its request. -/
def nextPusher (s : State) (core but : Nat) : Option (Nat × Reg × CopyReq) :=
  s.threads.foldl (fun (best : Option (Nat × Reg × CopyReq)) p =>
    match p.2.wait with
    | some (.copy d (some r)) =>
      if p.2.core == core && p.1 != but && p.2.isBound then
        match best with
        | some b => if b.2.2.home ≤ r.home then some b else some (p.1, d, r)
        | none => some (p.1, d, r)
      else best
    | _ => best) none

/-- While an entry of a core's command FIFO is free, the requests that wait for one are pushed. -/
def servicePushers (but : Nat) : Nat → State → Nat → State
  | 0, s, _ => s
  | n + 1, s, core =>
    let c := s.core core
    if 16 ≤ c.fifo.length then s else
    match nextPusher s core but with
    | some (t, d, r) =>
      match s.thread t with
      | some th => servicePushers but n ((s.putCore core { c with fifo := c.fifo ++ [r] }).putThread t { th with wait := some (.copy d none) }) core
      | none => s
    | none => s

/-- Removes a thread's request from its core's command FIFO (R261). -/
def dropFifo (s : State) (t : Nat) (th : Thread) : State :=
  let c := s.core th.core
  servicePushers t 16 (s.putCore th.core { c with fifo := c.fifo.filter (fun r => r.tid != t) }) th.core

/-- CPY (R261). -/
def execCpy (d a b : BitVec 5) (s : State) : Outcome :=
  runState s (fun th => .ok (pushCopy s th d [th.getX a, th.getX (a + 1), th.getX b, th.getX (b + 1)]))

/-- CPYT (R261): a pointer that is not a multiple of 32 traps before its space is judged, but for CONTROL in user mode (R147). -/
def execCpyt (d a : BitVec 5) (s : State) : Outcome :=
  runCheck s (fun th =>
    let ptr := th.getX a
    if th.mode = .user ∧ ptr.extractLsb' 60 4 = 15 then trapOf .privileged ptr
    else if ptr.toNat % 32 ≠ 0 then trapOf .loadMisaligned ptr else
    match loadTags s th ptr 4 with
    | .error e => .error e
    | .ok (some s1) => .ok s1
    | .ok none =>
      match loadWords s (cxOf s th) th.place.handle ptr 4 with
      | .error e => .error e
      | .ok (l, s1) => .ok (pushCopy s1 th d l))

/-! ### Accepting a request (R254, R260) -/

/-- Removes the head of a core's command FIFO, and the round-robin pointer passes the core (R260). -/
def popFifo (s : State) (core : Nat) : State :=
  let c := s.core core
  let s1 := servicePushers s.nextTid 16 (s.putCore core { c with fifo := c.fifo.drop 1 }) core
  let k := s1.cluster (clusterOfCore core)
  s1.putCluster (clusterOfCore core) { k with copyPtr := (core + 1) % 32 }

/-- The directory gives up its entries for owned lines (R23, R301), and their home slices have accepted the engine's requests, at the port of
its core's cluster (R302). -/
def recallOwned (s : State) (core : Nat) (owned : List Owned) : State :=
  let s1 := { s with dir := s.dir.filter (fun p => !(owned.any (fun o => o.meets true (p.1 * 32) 32))) }
  owned.foldl (fun st o => if o.dram then
    (List.range ((o.start + o.len + 255) / 256 - o.start / 256)).foldl (fun x i => x.acceptPort core ((o.start / 256 + i) * 256)) st
    else st) s1

/-- The engine takes the head of a core's command FIFO, or leaves it while it must wait. -/
def acceptFrom (s : State) (core : Nat) : Option State :=
  match (s.core core).fifo with
  | [] => none
  | r :: _ =>
    match checkRequest s r with
    | .error none => none
    | .error (some tr) => some ((popFifo s core).failWait r.tid tr)
    | .ok (desc, banks) =>
      let s1 := popFifo s core
      let cl := clusterOfCore core
      let k := s1.cluster cl
      let bare : CopyJob := { req := r, seq := s.seq, desc := desc, banks := banks, iter := 0, owned := [] }
      if (List.range (r.iterations desc)).any (destWaits s bare) then none else
      let job := { bare with owned := ownAll s bare }
      let s2 := recallOwned { s1.putCluster cl { k with jobs := k.jobs ++ [job] } with seq := s.seq + 1 } core job.owned
      match s2.thread r.tid with
      | some th =>
        match th.wait with
        | some (.copy d _) =>
          some (s2.finishWait r.tid (fun x => { x.setX d 0 with copies := x.copies + (if r.signal = 1 then 1 else 0) }))
        | _ => some s2
      | none => some s2

/-- Whether a partition is halted, so that its engines accept nothing (R149). -/
def clusterHalted (s : State) (cluster : Nat) : Bool := (s.helben.halts.find (s.cluster cluster).partId).isSome

/-- COPY_REQUEST_ACCEPT (R254, R260): the first command FIFO in round-robin order whose head the engine can take. That of a halted partition
or of a retired cluster takes none: its requests stay queued (R149, R380). -/
def execCopyRequestAccept (cluster : Nat) (s : State) : Outcome :=
  let k := s.cluster cluster
  if 64 ≤ k.jobs.length ∨ clusterHalted s cluster = true ∨ k.retired = true then .next s else
  .next (((List.range 32).findSome? (fun i => acceptFrom s (cluster * 32 + (k.copyPtr + i) % 32))).getD s)

/-! ### Moving bytes (R255 to R259) -/

/-- What feeds the bytes of one tile, in destination order: a source pointer, or a byte of the fill value (R255). -/
def tilePlan (t : Tensor) (origin : List Nat) : List (Option Word × Byte) :=
  let e := fun (l : List Nat) (k : Nat) => l.getD k 0
  let n := t.shape.foldl (· * ·) 1
  ((List.range n).map (fun f =>
    let k := [f % e t.shape 0, f / e t.shape 0 % e t.shape 1, f / (e t.shape 0 * e t.shape 1) % e t.shape 2,
              f / (e t.shape 0 * e t.shape 1 * e t.shape 2)]
    let c := (origin.zip k).map (fun p => p.1 + p.2)
    let inside := (c.zip t.extent).all (fun p => decide (p.1 < p.2))
    let at_ := t.base + BitVec.ofNat 64 (dot c t.stride)
    (List.range t.size).map (fun j =>
      (if inside then some (at_ + BitVec.ofNat 64 j) else none, t.fill.extractLsb' (8 * j) 8)))).flatten

/-- What feeds the destination bytes of a job's next transfer or iteration. -/
def CopyJob.plan (j : CopyJob) : List (Option Word × Byte) :=
  let n := j.req.bytes j.desc
  match j.req.kind with
  | 0 => (List.range n).map (fun k => (some (j.req.w0 + BitVec.ofNat 64 k), 0))
  | 3 => (List.range n).map (fun k => (none, j.req.w0.extractLsb' (8 * (k % 8)) 8))
  | _ => tilePlan (tensorOf j.desc) (tileOrigin (tensorOf j.desc) j.req.w2 j.iter)

/-- The status without a fault (R255, R258): 1 OOB_ALL, 2 OOB_PART. -/
def planStatus (kind : Nat) (plan : List (Option Word × Byte)) : Nat :=
  if kind ≠ 1 ∧ kind ≠ 2 then 0
  else if plan.all (fun p => p.1.isNone) then 1
  else if plan.any (fun p => p.1.isNone) then 2 else 0

/-- Reads the whole source: the bytes, or the first faulting address (R256, R259). -/
def gather (s : State) (j : CopyJob) : List (Option Word × Byte) → Except Word (List Byte) × State
  | [] => (.ok [], s)
  | (none, b) :: rest =>
    let q := gather s j rest
    (q.1.map (fun l => b :: l), q.2)
  | (some p, _) :: rest =>
    match copyAcc s j .load p with
    | .error _ => (.error p, s)
    | .ok a =>
      let tagged := match a.loc with
        | .dram pa => a.lpage && s.tag pa != 0
        | _ => false
      if locBad s a.loc 1 || tagged then (.error p, s)
      else
        let b : Byte := BitVec.ofNat 8 (readLoc s a.loc 1)
        let q := gather (touchAcc s none .load a) j rest
        (q.1.map (fun l => b :: l), q.2)

/-- Writes one byte at each destination; the first that faults ends it (R257, R259). The home slice accepts the engine's write of a line
at its cluster's port (R302): `first` says that a line may begin here without its first byte. -/
def writeEach (s : State) (j : CopyJob) (first : Bool) (b : Byte) : List Word → Option Word × State
  | [] => (none, s)
  | p :: rest =>
    match copyAcc s j .store p with
    | .error _ => (some p, s)
    | .ok a =>
      match storeTag s none a.loc a.lpage p with
      | .error _ => (some p, s)
      | .ok keep =>
        let s1 := writeLoc (touchAcc s none .store a) keep a.loc 1 b.toNat
        let s2 := match a.loc with
          | .dram pa => if first || pa % 32 == 0 then s1.acceptPort (coreOfHandle j.req.home) pa else s1
          | _ => s1
        writeEach s2 j first b rest

/-- Writes the bytes in ascending destination order: how many were written, the faulting address, and the state. -/
def scatter (j : CopyJob) (dsts : List Word) : List Byte → Nat → State → Nat × Option Word × State
  | [], off, s => (off, none, s)
  | b :: rest, off, s =>
    match writeEach s j (off == 0) b (dsts.map (fun p => p + BitVec.ofNat 64 off)) with
    | (some p, s1) => (off, some p, s1)
    | (none, s1) => scatter j dsts rest (off + 1) s1

/-- The stage pointers of a group (R247): stage wn of each bank. -/
def stagePtrs (s : State) (banks : List Nat) : List Word :=
  banks.map (fun n => match (s.bank n).mode with
    | .fifo c => (0x1000000000000000 : Word) ||| BitVec.ofNat 64 (n % 32 * 2 ^ 17 + c.wn * stageBytes c.size)
    | _ => 0)

/-- Publishes stage wn of a bank and advances wn (R247); a reader that waits takes it (R271). -/
def publishStage (s : State) (bank : Nat) : State :=
  match (s.bank bank).mode with
  | .fifo c =>
    wakeReader (putChannel s bank { c with stages := c.stages.set c.wn .published, wn := (c.wn + 1) % c.stages.length }) bank
  | _ => s

/-- Posts a transfer's signal (R258), `last` for the request's last, and COPY_FAULT where it is asked for (R259). -/
def postSignal (s : State) (j : CopyJob) (last : Bool) (status bytes : Nat) (addr : Word) : State :=
  let r := j.req
  let s1 := match r.signal with
    | 1 => postMail s r.home (BitVec.ofNat 64 ((r.w3.extractLsb' 16 16).toNat + status * 2 ^ 16 + bytes * 2 ^ 32)) addr
      (some { tid := r.tid, fifo := r.fifo, last := last })
    | 2 =>
      let b := s.barrier r.cluster r.barrierNo
      s.putBarrier r.cluster r.barrierNo { b with pending := b.pending - bytes }
    | 3 => if status = 3 then s else j.groupBanks.foldl publishStage s
    | _ => s
  if status = 3 then copyFault s1 r addr else s1

/-- Replaces a job, or removes it. -/
def putJob (s : State) (cluster seq : Nat) (j : Option CopyJob) : State :=
  let k := s.cluster cluster
  s.putCluster cluster { k with jobs := match j with
    | some x => k.jobs.map (fun y => if y.seq = seq then x else y)
    | none => k.jobs.filter (fun y => y.seq != seq) }

/-- The engine takes the ports of the banks that it reads or writes for n bytes of a job: one access for every 128 bytes, the first now and
the rest as the ports grant them (R92; log 5). -/
def takePorts (s : State) (cluster : Nat) (banks : List Nat) (n : Nat) : State :=
  banks.foldl (fun st b =>
    let place := portPlace b cluster none
    let s1 := grantPort st b place 1
    let k := (n + 127) / 128 - 1 + ((s1.bank b).engines.find place).getD 0
    if k = 0 then s1 else s1.putBank b { s1.bank b with engines := (s1.bank b).engines.put place k }) s

/-- One transfer or iteration of a job, its signal, and the release of its lines (R255 to R259). -/
def moveJob (s : State) (cluster : Nat) (j : CopyJob) : State :=
  let plan := j.plan
  let dsts := if j.req.signal = 3 then stagePtrs s j.groupBanks else j.req.dests j.desc j.iter
  let g := gather s j plan
  let res : Nat × Nat × Word × State := match g.1 with
    | .error p => (3, 0, p, g.2)
    | .ok bytes =>
      match scatter j dsts bytes 0 g.2 with
      | (n, some p, s1) => (3, n, p, s1)
      | (n, none, s1) => (planStatus j.req.kind plan, n, 0, s1)
  let j1 := { j with iter := j.iter + 1, owned := j.owned.filter (fun o => o.iter != j.iter) }
  let last := res.1 == 3 || decide (j.req.iterations j.desc ≤ j1.iter)
  let s1 := takePorts (putJob res.2.2.2 cluster j.seq (if last then none else some j1)) cluster j.banks (j.req.bytes j.desc)
  flushLate (postSignal s1 j last res.1 res.2.1 res.2.2.1)

/-- Whether a line of n bytes at a place belongs to a request accepted before (R41). -/
def ownedBefore (s : State) (seq : Nat) (dram : Bool) (a n : Nat) : Bool :=
  s.clusters.any (fun c => c.2.jobs.any (fun j => decide (j.seq < seq) && j.owned.any (fun o => o.meets dram a n)))

/-- Whether the stage a group writes next is FREE in every bank (R247), and every change that a bank accepted before the request is done
(R248). -/
def stagesFree (s : State) (seq : Nat) (banks : List Nat) : Bool :=
  banks.all (fun n => (s.bank n).changes.all (fun c => decide (seq < c.seq)) && match (s.bank n).mode with
    | .fifo c => c.stages[c.wn]? == some .free
    | _ => false)

/-- Whether a job can move its next transfer or iteration: earlier requests of its core, of its destination lines, of its
source lines, of the page-table lines that it walks and of its channels come first (R40, R41, R260, R247); a signal comes after the messages of
earlier requests of its core's FIFO that full mailboxes hold, where it does not queue behind them (R40, R258); and the ports of its banks are
free and have made its engine's earlier accesses (R92). -/
def CopyJob.eligible (s : State) (cluster : Nat) (j : CopyJob) : Bool :=
  let earlier := (s.cluster cluster).jobs.filter (fun x => decide (x.seq < j.seq))
  !(earlier.any (fun x => x.req.fifo == j.req.fifo))
    && !(j.owned.any (fun o => o.iter == j.iter && ownedBefore s j.seq o.dram o.start o.len))
    && !(j.plan.any (fun p => match p.1 with
      | some ptr => match copyAcc s j .load ptr with
        | .ok a => match a.loc with
          | .dram pa => ownedBefore s j.seq true pa 1
          | .bank key => ownedBefore s j.seq false key 1
          | _ => false
        | .error none => true
        | .error (some _) => false
      | none => false))
    && !destWaits s j j.iter
    && (j.req.signal == 0 || !(s.cores.any (fun c => (j.req.signal != 1 || c.1 != coreOfHandle j.req.home)
      && c.2.held.any (fun m => m.copyOf.any (fun x => x.fifo == j.req.fifo)))))
    && j.banks.all (fun b => !portBusy s b && ((s.bank b).engines.find (portPlace b cluster none)).isNone)
    && (j.req.signal != 3 || (stagesFree s j.seq j.groupBanks
      && !(earlier.any (fun x => x.req.signal == 3 && x.groupBanks.any (fun n => j.groupBanks.contains n)))))

/-- The first job of a cluster that can move, among those of TILE_LOOP or those of the other kinds. -/
def nextJob (s : State) (cluster : Nat) (loop : Bool) : Option CopyJob :=
  (s.cluster cluster).jobs.find? (fun j => (j.req.kind == 2) == loop && j.eligible s cluster)

/-- COPY_TRANSFER (R255): a LINEAR, FILL or TILE request moves whole. -/
def execCopyTransfer (cluster : Nat) (s : State) : Outcome :=
  .next (match nextJob s cluster false with
    | some j => moveJob s cluster j
    | none => s)

/-- COPY_LOOP_ITERATION (R247, R255): one iteration of a TILE_LOOP. -/
def execCopyLoopIteration (cluster : Nat) (s : State) : Outcome :=
  .next (match nextJob s cluster true with
    | some j => moveJob s cluster j
    | none => s)

end Sys2Proof.Machine
end

