-- ==== Sys2Proof/Machine/TaskInstr.lean ====
section
/-!
DEFINITION. The TASK group (R288 to R294), the launch header (R275, R276), and the completion of a launch as an event (R280).
-/
namespace Sys2Proof.Machine

/-- The issuer's part of a thread's CONT. -/
def contBy (s : State) (th : Thread) : ContBy :=
  { cx := cxOf s th, handle := th.place.handle, core := th.core, lctx := th.lctx.toNat }

/-- Whether a core can take pushes from a partition: its cluster's partition, live, and its die in the launch's diemask
(R290). -/
def spawnTargetOk (s : State) (th : Thread) (core : Nat) : Bool :=
  let k := s.cluster (clusterOfCore core)
  k.partId == (s.cluster (clusterOfCore th.core)).partId && !(s.core core).retired && !k.retired
    && dieAllowed s th.lctx.toNat core

/-- SPAWN and SPAWNX after the record is read (R290). -/
def spawnOnto (s : State) (th : Thread) (d : Reg) (l : List Word) (ptr : Word) (core : Nat) : Check State :=
  let m := th.mult.toNat * multField (recMult l)
  if 2 ^ 32 - 1 < m then trapOf .meetMultOverflow (BitVec.ofNat 64 m)
  else match chargeAndPush s (dieOfCore th.core) core (entryOf l ptr m th.lctx.toNat) with
    | .error c => trapOf c ptr
    | .ok s1 => .ok (s1.retireX d 0)

/-- SPAWN (R290). -/
def execSpawn (d a : BitVec 5) (s : State) : Outcome :=
  runCheck s (fun th =>
    let ptr := th.getX a
    match readRecord s (cxOf s th) th.place.handle ptr with
    | .error e => .error e
    | .ok (l, s1) =>
      if !spawnRecordOk l th.lctx.toNat then trapOf .taskRecordInvalid ptr else spawnOnto s1 th d l ptr th.core)

/-- SPAWNX (R290). -/
def execSpawnx (d a b : BitVec 5) (s : State) : Outcome :=
  runCheck s (fun th =>
    let ptr := th.getX a
    match readRecord s (cxOf s th) th.place.handle ptr with
    | .error e => .error e
    | .ok (l, s1) =>
      if !spawnRecordOk l th.lctx.toNat then trapOf .taskRecordInvalid ptr else
      match coreOfCsr (th.getX b).toNat with
      | none => trapOf .taskRecordInvalid (th.getX b)
      | some core =>
        if !spawnTargetOk s1 th core then trapOf .taskRecordInvalid (th.getX b) else spawnOnto s1 th d l ptr core)

/-- CONT (R291). -/
def execCont (d a b : BitVec 5) (s : State) : Outcome :=
  runCheck s (fun th =>
    match contOp s (contBy s th) (th.getX a) ((th.getX b).truncate 32 : BitVec 32).toInt with
    | .error e => .error e
    | .ok (s1, c) => .ok (s1.retireX d (BitVec.ofNat 64 c)))

/-- The thread ends (R292): its tiles are released, its slot becomes EMPTY, and its leaf loses one. -/
def endRetired (s : State) (t : Nat) : State :=
  match s.thread t with
  | none => s
  | some th => endLeaf (s.removeThread t) th.lctx.toNat th.widself th.core

/-- RETIRE (R292): its CONT of −1 comes first, with any trap. -/
def execRetire (a : BitVec 5) (s : State) : Outcome :=
  runCheck s (fun th =>
    if th.getX a = 0 then .ok (endRetired s s.cur)
    else match contOp s (contBy s th) (th.getX a) (-1) with
      | .error e => .error e
      | .ok (s1, _) => .ok (endRetired s1 s1.cur))

/-- Whether a cluster is one of a partition: a retired one, whose PARTID is 0 (R380), is one of none (log 76). -/
def clusterIn (s : State) (partId cluster : Nat) : Bool :=
  (s.cluster cluster).partId == partId && !(s.cluster cluster).retired

/-- The dies that hold a cluster of a partition. -/
def partitionDies (s : State) (partId : Nat) : List Nat :=
  (List.range 4).filter (fun d => (List.range 36).any (fun c => clusterIn s partId (d * 36 + c)))

/-- Whether an event target is valid (R279). -/
def targetOk (t : Word) : Bool :=
  t.extractLsb' 17 46 == 0 && (if t.getLsbD 63 then t.extractLsb' 11 6 == 0 else decide ((t.extractLsb' 9 6).toNat < 36))

/-- The header of sixteen words, if checks 2 to 6 of R276 pass. -/
def parseHeader (s : State) (partId : Nat) (l : List Word) : Option Header :=
  let w := fun off => l.getD (off / 8) 0
  let widthAt := fun i => ((w 16).extractLsb' (6 * i) 6).toNat
  let ws := (List.range 6).map widthAt
  let n := (ws.takeWhile (· != 0)).length
  let es := (List.range 6).map (fun i => (w (24 + 8 * i)).toNat)
  let widths := ws.take n
  let extents := es.take n
  let total := extents.foldl (· * ·) 1
  let flag := fun i => (w 16).getLsbD i
  let hdr : Header :=
    { entry := w 0, arg := w 8, widths := widths, det := flag 36, strict := flag 37, replay := flag 38, syscomp := flag 39,
      extents := extents, events := ((w 72).extractLsb' 0 7).toNat, target := w 80, dep0 := w 88, dep1 := w 96,
      weight := ((w 104).extractLsb' 0 4).toNat, diemask := (w 104).extractLsb' 4 4, banks := (w 104).extractLsb' 32 32,
      staging := w 112, stagesize := (w 120).toNat }
  let check2 := decide (1 ≤ n) && (ws.drop n).all (· == 0) && decide (widths.foldl (· + ·) 0 ≤ 64)
    && (widths.zip extents).all (fun p => decide (p.2 ≤ 2 ^ p.1)) && (es.drop n).all (· == 0)
  let check3 := decide (total ≤ 2 ^ 64 - 1)
  let check4 := (!hdr.det || hdr.strict) && (w 16).extractLsb' 40 24 == 0 && (w 72).extractLsb' 7 57 == 0
    && (w 104).extractLsb' 8 24 == 0 && hdr.weight != 0 && (partitionDies s partId).any (fun d => hdr.diemask.getLsbD d)
  let check5 := decide (hdr.events / 2 ^ (n + 1) = 0) && (hdr.events == 0 || targetOk hdr.target)
  let check6 := (w 0).toNat % 4 == 0 && (w 112).toNat % 256 == 0 && hdr.stagesize % 256 == 0
  if check2 && check3 && check4 && check5 && check6 then some hdr else none

/-- The core whose deque takes the range of a launch (R293). -/
def launchCore (s : State) (th : Thread) (h : Header) : Nat :=
  if h.diemask.getLsbD (dieOfCore th.core) then th.core
  else
    let part := (s.cluster (clusterOfCore th.core)).partId
    match (partitionDies s part).find? (fun d => h.diemask.getLsbD d) with
    | some d => match (List.range 36).find? (fun c => clusterIn s part (d * 36 + c)) with
      | some c => (d * 36 + c) * 32
      | none => th.core
    | none => th.core

/-- The lowest launch context number that is free (R293). -/
def freeLctx (s : State) : Option Nat := ((List.range 4095).map (· + 1)).find? (fun n => (s.launch n).isNone)

/-- The dies that hold the copies of a journal record (R381): dies 1 and 3, and for a die that has failed another live one. -/
def journalDies (s : State) : List Nat :=
  let live := (List.range 4).filter (fun d => !s.helben.dead.contains d)
  (([1, 3] ++ [0, 2]).filter live.contains).take 2

/-- LAUNCH (R293). The header is read as R116 reads any pointer, also outside GLOBAL space, where R275 puts it (log 63). With T = 0 it
waits while a copy engine owns a line of a dependant's record (R17, R23). -/
def execLaunch (d a : BitVec 5) (s : State) : Outcome :=
  runCheck s (fun th =>
    let ptr := th.getX a
    let cx := cxOf s th
    match spaceOf cx (clusterOfCore th.core) .load false ptr with
    | .error t => .error (some t)
    | .ok _ =>
      if ptr.toNat % 128 ≠ 0 then trapOf .loadMisaligned ptr else
      match loadWords s cx th.place.handle ptr 16 with
      | .error e => .error e
      | .ok (ws, s1) =>
        match parseHeader s (s.cluster (clusterOfCore th.core)).partId ws with
        | none => trapOf .launchHeaderInvalid ptr
        | some h =>
          match freeLctx s1 with
          | none => .ok (s1.retireX d 0)
          | some n =>
            let total := h.extents.foldl (· * ·) 1
            let l : Launch :=
              { hdr := h, x11 := ptr, csrs := s.csrsOf th, issuer := th.lctx.toNat, core := th.core, total := total,
                leaves := [], closed := [], lastCore := th.core, done := false, budget := 0, area := 0, staged := [],
                events := [] }
            let s2 := s1.putLaunch n l
            let s3 := if h.replay then { s2 with helben := { s2.helben with journal := s2.helben.journal ++ [{ lctx := n, phase := 0, launch := l, copies := journalDies s2 }] } }
              else s2
            if total = 0 then
              if completionHeld s3 l then stall else .ok ((completeLaunch s3 n th.core).retireX d (BitVec.ofNat 64 n))
            else
              let e : DequeEntry :=
                { kind := .range 0 total, entry := h.entry, arg := h.arg, x11 := ptr, wid := 0, widself := 0, prio := 0,
                  mult := 1, lctx := n }
              match pushDeque s3 (launchCore s th h) e with
              | .error c => trapOf c ptr
              | .ok s4 => .ok (s4.retireX d (BitVec.ofNat 64 n)))

/-- YIELD (R294): decided at the next rotation boundary. -/
def execYield (d : BitVec 5) (s : State) : Outcome := runState s (fun _ => .ok (s.waitCur (.yield d)))

/-- LAUNCH_COMPLETION (R280): the launch whose root has finished completes; it waits for a copy engine that holds a
dependant's record (R23), and one that a failure interrupted is run again first (R382). -/
def execLaunchCompletion (lctx : Nat) (s : State) : Outcome :=
  match s.launch lctx with
  | some l =>
    if l.done && !(s.helben.journal.any (fun j => j.lctx == lctx && j.phase == 1)) && !completionHeld s l then
      .next (completeLaunch s lctx l.lastCore)
    else .next s
  | none => .next s

end Sys2Proof.Machine
end

