-- ==== Sys2Proof/Machine/Rotation.lean ====
section
/-!
DEFINITION. The task engine at rotation boundaries: contexts (R285, R286), slots (R283), YIELD (R294), starvation and
pre-emption (R287, R145), and stealing (R284).
-/
namespace Sys2Proof.Machine

/-- The cores that hold state: a core outside the list is as at reset and holds no thread. -/
def coreList (s : State) : List Nat :=
  let known := s.cores.map (·.1)
  known ++ ((s.threads.map (fun p => p.2.core)).eraseDups.filter (fun c => !known.contains c))

/-- Whether the task engine of a core works: its partition is not halted and neither it nor its cluster is retired (R149,
R380). -/
def engineRuns (s : State) (core : Nat) : Bool :=
  !(clusterHalted s (clusterOfCore core)) && !(s.core core).retired && !(s.cluster (clusterOfCore core)).retired

/-- Whether a slot is EMPTY: no thread is bound in it or about to be (R85, R131). -/
def slotEmpty (s : State) (handle : Nat) : Bool :=
  !(s.threads.any (fun p => p.2.place == .slot handle || p.2.place == .arriving handle))

/-- The saved thread that keeps a handle (R263), in the context cache, the spill area, or a record that CTXOUT wrote. -/
def keptBy (s : State) (handle : Nat) : Option (Nat × Thread) :=
  s.threads.find? (fun p => p.2.place.handle == handle && (match p.2.place with
    | .cached _ => true
    | .spilled _ _ => true
    | .out _ _ => true
    | _ => false) && keepsHandle s p.1 p.2)

/-- Whether a deque entry may be chosen under step 2 of R283: not a thunk that step 1 binds. -/
def DequeEntry.free (e : DequeEntry) : Bool :=
  match e.kind with
  | .thunk _ _ _ .no => true
  | .thunk _ _ _ _ => false
  | _ => true

/-- The record that step 3 of R283 chooses among the on-chip entries of a context: its index from the bottom. -/
def pickRecord (c : Core) (lctx : Nat) : Option Nat :=
  (((List.range 64).zip c.deque).foldl (fun (best : Option (Nat × Nat)) p =>
    if p.2.lctx = lctx ∧ p.2.free = true ∧ p.2.spill = none then
      match best with
      | some b => if b.2 < p.2.prio then some (p.1, p.2.prio) else some b
      | none => some (p.1, p.2.prio)
    else best) none).map (·.1)

/-- The saved contexts of a launch context on a core that are ready work, with their thread numbers. -/
def readySaved (s : State) (core lctx : Nat) : List (Nat × Thread) :=
  s.threads.filter (fun p => p.2.restorable && p.2.core == core && p.2.lctx.toNat == lctx && recordFree s p.2)

/-- Whether a served context has ready work (R283, R286). -/
def hasWork (s : State) (core lctx : Nat) : Bool :=
  !(readySaved s core lctx).isEmpty || (pickRecord (s.core core) lctx).isSome

/-- The weight of a context (R286). -/
def weightOf (s : State) (lctx : Nat) : Nat := if lctx = 0 then 15 else ((s.launch lctx).map (·.hdr.weight)).getD 0

/-- The clamp of a deficit (R286). -/
def clampDeficit (n : Int) : Int := max (-256) (min 255 n)

/-- Changes a served context. -/
def modServed (s : State) (core lctx : Nat) (f : Served → Served) : State :=
  let c := s.core core
  s.putCore core { c with served := c.served.map (fun x => if x.lctx = lctx then f x else x) }

/-- A slot taken by a context costs it 16; only the addition of a weight is clamped (R286). -/
def paySlot (s : State) (core lctx : Nat) : State :=
  modServed s core lctx (fun x => { x with deficit := x.deficit - 16 })

/-- A core takes the contexts of its on-chip records, from the bottom upward, until it serves 4 (R285). -/
def takeContexts (s : State) (core : Nat) : State :=
  ((s.core core).deque.take 64).foldl (fun st e => takeContext st core e.lctx) s

/-- Whether step 1 of R283 would bind a thunk of the core. -/
def hasReserved (s : State) (core : Nat) : Bool := (s.core core).deque.any (fun e => !e.free)

/-- A YIELD is decided (R294): saved with X[d] = 0 when other ready work is there and its context can be saved, else it goes
on with X[d] = 1. A retired core saves none. -/
def resolveYield (s : State) (core t : Nat) : State :=
  match s.thread t with
  | none => s
  | some th =>
    match th.wait with
    | some (.yield d) =>
      let other := !(s.core core).retired && (hasReserved s core || (s.core core).served.any (fun x => hasWork s core x.lctx))
      let done := fun (v : Word) => s.putThread t ((th.setX d v).retire s.cycle)
      if other then (leaveSlot (done 0) t).getD (done 1) else done 1
    | _ => s

/-- The threads bound in a core's slots, in slot order. -/
def boundOn (s : State) (core : Nat) : List (Nat × Thread) :=
  (List.range 16).filterMap (fun k => s.inSlot (handleOf core k))

/-- Every served context with ready work adds its weight (R286). -/
def addWeights (s : State) (core : Nat) : State :=
  let c := s.core core
  s.putCore core { c with served := c.served.map (fun x =>
    if hasWork s core x.lctx then { x with deficit := clampDeficit (x.deficit + weightOf s x.lctx) } else x) }

/-- The index of the thunk that step 1 of R283 binds in a slot: the one that waited longest of those that the slot is reserved for. -/
def reservedFor (c : Core) (slot : Nat) : Option Nat :=
  (((List.range c.deque.length).zip c.deque).filter (fun p => match p.2.kind with
    | .thunk _ _ _ k => k == .slot slot
    | _ => false)).getLast?.map (·.1)

/-- A context that CTXIN restored is bound (R131): READY 8 cycles later. A slot that R20 reserves binds its thunk first, and the context at
the first boundary after it that finds the slot EMPTY (log 73). -/
def bindArriving (s : State) (core : Nat) : State :=
  (List.range 16).foldl (fun st k =>
    let h := handleOf core k
    if (st.inSlot h).isSome || (reservedFor (st.core core) k).isSome then st else
    match st.threads.find? (fun p => p.2.place == .arriving h) with
    | some (t, th) => bindSaved st t th h
    | none => st) s

/-- Binds the entry at an index of a core's deque in a slot; a range gives its lowest index (R283). -/
def bindRecord (s : State) (core slot idx : Nat) : State :=
  let c := s.core core
  match c.deque[idx]? with
  | none => s
  | some e0 =>
    if !e0.readable s then s else
    let e := e0.taken s
    let settled := fun (d : List DequeEntry) => settleDeque (s.putCore core { c with deque := d }) core
    match e.kind with
    | .range lo hi =>
      let w := ((s.launch e.lctx).map (fun l => widOfIndex l.hdr lo)).getD 0
      let rest := if lo + 1 < hi then c.deque.set idx { e with kind := .range (lo + 1) hi } else c.deque.eraseIdx idx
      bindEntry (settled rest) core slot { e with kind := .task, wid := w, widself := w, mult := 1 }
    | _ => bindEntry (settled (c.deque.eraseIdx idx)) core slot e

/-- Step 2 and 3 of R283 and R286 for one slot: the context with ready work that any slot can take and the largest deficit, its
saved context that was saved first, else its record. -/
def allocate (s : State) (core slot : Nat) : State :=
  let c := s.core core
  let movable := fun (l : Nat) => (readySaved s core l).filter (fun p => !keepsHandle s p.1 p.2)
  let cands := c.served.filter (fun x => !(movable x.lctx).isEmpty || (pickRecord c x.lctx).isSome)
  match cands.foldl (fun (best : Option Served) x =>
      match best with
      | some b => if b.deficit < x.deficit ∨ (b.deficit = x.deficit ∧ x.idx < b.idx) then some x else some b
      | none => some x) none with
  | none => s
  | some x =>
    let s1 := paySlot s core x.lctx
    match (movable x.lctx).foldl (fun (best : Option (Nat × Thread)) p =>
        match best with
        | some b => if p.2.bound < b.2.bound then some p else some b
        | none => some p) none with
    | some (t, _) => restoreInto s1 t slot
    | none =>
      match pickRecord c x.lctx with
      | some i => bindRecord s1 core slot i
      | none => s

/-- The filling of one slot (R283): the thunk that it is reserved for, also where the loader that frees it, or another thread, keeps its
handle (R18, R20); the thunk of a loader kept bound, where no slot has become EMPTY since but one stood EMPTY all along (R145; log 54); the
thread that keeps its handle (R263); else the first choice of R286. A context that CTXIN restored has the slot. -/
def fillSlot (s : State) (core slot : Nat) : State :=
  let h := handleOf core slot
  if (s.inSlot h).isSome then s else
  match reservedFor (s.core core) slot with
  | some i => bindRecord s core slot i
  | none =>
    if !slotEmpty s h then s else
    match waitingFirst (s.core core) with
    | some i => bindRecord s core slot i
    | none =>
    match keptBy s h with
    | some (t, th) => if th.restorable && recordFree s th then restoreInto (paySlot s core th.lctx.toNat) t slot else s
    | none => allocate s core slot

/-- How many slots a context holds on a core. -/
def slotsHeld (s : State) (core lctx : Nat) : Nat := ((boundOn s core).filter (fun p => p.2.lctx.toNat == lctx)).length

/-- The sum W of the weights of the contexts with bound threads or ready work (R286). -/
def totalWeight (s : State) (core : Nat) : Nat :=
  (((s.core core).served.filter (fun x => hasWork s core x.lctx || slotsHeld s core x.lctx != 0)).map
    (fun x => weightOf s x.lctx)).foldl (· + ·) 0

/-- Whether a context is starved (R287): ready work, and at most share − 2 slots. -/
def isStarved (s : State) (core lctx : Nat) : Bool :=
  hasWork s core lctx && decide ((slotsHeld s core lctx + 2) * totalWeight s core ≤ 16 * weightOf s lctx)

/-- Counts the rotations in which each context has been starved in a row (R287). -/
def countStarved (s : State) (core : Nat) : State :=
  let c := s.core core
  s.putCore core { c with served := c.served.map (fun x =>
    { x with starved := if isStarved s core x.lctx then x.starved + 1 else 0 }) }

/-! ### The retirement of a core (R139, R298) -/

/-- The cores of a cluster from 0 upward. -/
def coresOf (cluster : Nat) : List Nat := (List.range 32).map (fun k => cluster * 32 + k)


/-- A thread of an interrupted launch ends without RETIRE's effects; the cell it evaluated fails (R382). -/
def endInterrupted (s : State) (t : Nat) : State :=
  match s.thread t with
  | none => s
  | some th =>
    let s1 := match th.evalOf with
      | some pa => (s.failCell pa 0xFFFFFFFFFFFFFFFE).logEvent .implicitCfail th.place.handle (BitVec.ofNat 64 pa) th.cell
      | none => s
    let s2 := match th.wait with
      | some (.cell pa _ _) => leaveCell s1 t pa
      | _ => s1
    (dropFifo s2 t th).removeThread t

/-- The open entries and counters of a launch in the meet tables go with its threads. -/
def clearMeets (s : State) (lctx : Nat) : State :=
  { s with clusters := s.clusters.map (fun p => (p.1, { p.2 with banks := p.2.banks.map (fun b =>
      match b.2.mode with
      | .meet t => (b.1, { b.2 with mode := .meet { t with entries := t.entries.filter (fun e => e.2.key.lctx.toNat != lctx),
                                                           insts := t.insts.filter (fun i => i.lctx.toNat != lctx) } })
      | _ => b) })) }

/-- The records of a launch leave every deque. -/
def clearDeques (s : State) (lctx : Nat) : State :=
  { s with cores := s.cores.map (fun p => (p.1, { p.2 with deque := p.2.deque.filter (fun e => e.lctx != lctx) })) }

/-- A launch that a failure interrupted ends, and stands as its journal record has it (R382). -/
def endLaunch (s : State) (j : Journal) : State :=
  let mine := (s.threads.filter (fun p => p.2.lctx.toNat == j.lctx)).map (·.1)
  let s1 := (clearDeques (clearMeets (mine.foldl endInterrupted s) j.lctx) j.lctx).putLaunch j.lctx j.launch
  { s1 with ended := s1.ended.filter (fun e => e.lctx != j.lctx) }

/-- A failure interrupts a launch (R382): a replayable one ends and is to be run again, another is logged. -/
def interruptLaunch (s : State) (lctx : Nat) : State :=
  if lctx = 0 then s
  else match s.helben.journal.find? (fun j => j.lctx == lctx) with
  | some j => (endLaunch s j).modHelben (fun h =>
    { h with journal := h.journal.map (fun x => if x.lctx = lctx then { x with phase := 1 } else x) })
  | none => s.logEvent .interrupted 0 (BitVec.ofNat 64 lctx) 0

/-- The code with which a thread's cell fails when a failure ends it (R328, R382). -/
def lostCode (s : State) (th : Thread) : Word :=
  if s.helben.journal.any (fun j => j.lctx == th.lctx.toNat) then 0xFFFFFFFFFFFFFFFE else 0xFFFFFFFFFFFFFFFF

/-- A thread on a failed part receives MACHINE_CHECK (R139, R380): one whose head or atomic is
outstanding at its next instruction boundary (R137), another now. The reason that Helben logs is 0 (log 74). -/
def endLost (s : State) (t : Nat) : State :=
  match s.thread t with
  | some th =>
    let open_ := th.isBound && (th.head.isSome || (match th.wait with
      | some (.atom _) => true
      | some (.smerge _) => true
      | _ => false))
    if open_ then s.putThread t { th with pending := th.pending ++ [{ cause := .machineCheck, val := 0 }] }
    else s.machineCheck t 0 (lostCode s th)
  | none => s

/-- A thread on a failed part is lost, and its launch is interrupted (R139, R380, R382). -/
def loseThread (s : State) (t : Nat) : State :=
  match s.thread t with
  | some th => interruptLaunch (endLost s t) th.lctx.toNat
  | none => s

/-- The live cores of a cluster that can take what a retired core of it leaves. -/
def liveCores (s : State) (core : Nat) : List Nat :=
  (coresOf (clusterOfCore core)).filter (fun c => c != core && engineRuns s c)

/-- Whether a live core can take a thread of a retired core: it has a free entry in its context cache and serves the thread's context or
can take it. -/
def canHost (s : State) (core : Nat) (th : Thread) : Bool :=
  decide ((cachedOn s core).length < 8) && servesOrCan s core th.lctx.toNat

/-- The copy requests of a thread follow it to a new handle, of which the spec says nothing (log 30). -/
def followHandle (s : State) (t old new : Nat) : State :=
  let cl := clusterOfCore (coreOfHandle old)
  let k := s.cluster cl
  s.putCluster cl { k with jobs := k.jobs.map (fun j => if j.req.tid = t then { j with req := { j.req with home := new } } else j) }

/-- Moves a saved or bound thread of a retired core to the context cache of another core of its cluster (R139); while none can take it, it
stays. One that holds tiles (R100), or for which the cluster has no live core, receives MACHINE_CHECK (log 30). -/
def moveThread (s : State) (t : Nat) : State :=
  match s.thread t with
  | none => s
  | some th =>
    let old := th.place.handle
    if 0 < s.tilesHeld t th ∨ (liveCores s th.core).isEmpty = true then loseThread s t
    else match (liveCores s th.core).find? (fun c => canHost s c th) with
      | none => s
      | some c =>
        let new := handleOf c (slotOfHandle old)
        let place := fun (x : Thread) =>
          followHandle { (takeContext s c th.lctx.toNat).putThread t
            { x with place := .cached new, preempt := false, window := none, bound := s.seq } with seq := s.seq + 1 } t old new
        match th.place with
        | .spilled h i =>
          let pa := spillAddr s (coreOfHandle h) i
          let l := readWordsPa s pa 608
          if !recordFree s th then s
          else if recordValid l && recordCoreOk l c then place (loadRecord th l)
          else (s.removeThread t).logEvent .contextSwapError h (BitVec.ofNat 64 pa) 0
        | _ => place th

/-- The deque records of a retired core go to the live cores of its cluster in ascending order, from the bottom, in turn; one that none of
them has room for stays (R298). -/
def moveDeque (s : State) (core : Nat) : State :=
  let live := liveCores s core
  let d := (s.core core).deque
  let s1 := s.putCore core { s.core core with deque := [] }
  if live.isEmpty then s else
  ((List.range d.length).zip d).foldl (fun st p =>
    let q := if p.2.readable s then p.2.taken s else p.2
    let e := match q.kind with
      | .thunk a b c _ => { q with kind := .thunk a b c .no }
      | _ => q
    let first := p.1 % live.length
    let to_ := (((List.range live.length).map (fun i => live.getD ((first + i) % live.length) 0)).find? (fun c =>
        p.2.readable s && decide ((st.core c).deque.length < dequeCapacity st c))).getD core
    settleDeque (st.putCore to_ { st.core to_ with deque := (st.core to_).deque ++ [e] }) to_) s1

/-- The saved threads of a retired core, and its records, move as far as other cores have room. -/
def emptyCore (s : State) (core : Nat) : State :=
  let saved := (s.threads.filter (fun p => p.2.core == core && (match p.2.place with
    | .cached _ => true
    | .spilled _ _ => true
    | .arriving _ => true
    | _ => false))).map (·.1)
  moveDeque (saved.foldl moveThread s) core

/-- A core retires (R139, R380): its saved threads move, its bound ones are pre-empted and move at their boundaries, and its deque's
records move. -/
def retireCore (s : State) (core : Nat) : State :=
  let s1 := emptyCore (s.putCore core { s.core core with retired := true }) core
  { s1 with threads := s1.threads.map (fun p =>
    if p.2.core == core && p.2.isBound then (p.1, { p.2 with preempt := true }) else p) }

/-- Whether a bound thread that waits with a park kind, because its core could not save it, counts as parked (R145). -/
def Thread.parkedBound (th : Thread) : Bool := (th.wait.map (fun w => w.parkKind != 0)).getD false

/-- The threads that wait bound, because their core could not save them, park in slot order while its cache or spill area has room
(R145). -/
def parkKept (s : State) (core : Nat) : State :=
  (boundOn s core).foldl (fun st p =>
    match st.thread p.1 with
    | some th => if th.parkedBound && th.head.isNone then st.park p.1 else st
    | none => st) s

/-- The boundary of one core. Where its task engine does not work, outstanding YIELDs are decided all the same (R149), and a retired core
gives its threads and records to others as far as they have room (R139, R298). -/
def boundaryCore (s : State) (core : Nat) : State :=
  if (s.core core).retired then emptyCore ((boundOn s core).foldl (fun st p => resolveYield st core p.1) s) core
  else if !engineRuns s core then (boundOn s core).foldl (fun st p => resolveYield st core p.1) s
  else
    let s1 := takeContexts (dropContexts (parkKept s core) core) core
    let s2 := (boundOn s1 core).foldl (fun st p => resolveYield st core p.1) s1
    let s3 := bindArriving (addWeights s2 core) core
    countStarved ((List.range 16).foldl (fun st k => fillSlot st core k) s3) core

/-- A rotation that power throttling withholds, or that a halt takes, does not count for the watchdog of the threads on the part
(R377, R149). -/
def skipWithheld (s : State) : State :=
  { s with threads := s.threads.map (fun p =>
      match p.2.place with
      | .swapped _ _ _ _ => p
      | _ =>
        if withheld (s.cycle / 16) (s.die (dieOfCore p.2.core)).throttle || clusterHalted s (clusterOfCore p.2.core) then
          (p.1, { p.2 with lastRetire := p.2.lastRetire + 1 })
        else p) }

/-- ROTATION_BOUNDARY (R283): once in every rotation of 16 cycles. -/
def execRotationBoundary (s : State) : Outcome :=
  if s.cycle / 16 < s.rot then .next s
  else
    let s1 := { s with rot := s.cycle / 16 + 1 }
    .next ((coreList s1).foldl boundaryCore (skipWithheld s1))

/-! ### Stealing (R284) -/

/-- The clusters of a die in ring order from one of them: at distance 1, 2, …, c + d before c − d (R284). -/
def ringOf (c : Nat) : List Nat :=
  ((List.range 18).map (fun d =>
    if (c + d + 1) % 36 = (c + 36 - (d + 1)) % 36 then [(c + d + 1) % 36] else [(c + d + 1) % 36, (c + 36 - (d + 1)) % 36])).flatten

/-- The victims of a thief in order, those of its partition (R284, R149); a retired cluster belongs to none (R380). -/
def victimsOf (s : State) (core : Nat) : List Nat :=
  let cl := clusterOfCore core
  let die := cl / 36
  let c := cl % 36
  let own := (List.range 31).map (fun i => cl * 32 + (core % 32 + i + 1) % 32)
  let near := ((ringOf c).map (fun k => coresOf (die * 36 + k))).flatten
  let far := (((List.range 4).filter (· != die)).map (fun d =>
    ((c :: ringOf c).map (fun k => coresOf (d * 36 + k))).flatten)).flatten
  (own ++ near ++ far).filter (fun v => (s.cluster (clusterOfCore v)).partId == (s.cluster cl).partId
    && !(s.cluster (clusterOfCore v)).retired)

/-- Whether a core sends a steal request: an EMPTY slot, no ready work, none sent in this rotation. -/
def stealDue (s : State) (core : Nat) : Bool :=
  decide (core < 4608) && engineRuns s core && decide ((s.core core).asked < s.rot)
    && !((s.core core).served.any (fun x => hasWork s core x.lctx)) && !hasReserved s core
    && (List.range 16).any (fun k => slotEmpty s (handleOf core k))

/-- The index of the entry that a victim gives a thief: the top-most one it may (R284). -/
def givenEntry (s : State) (thief victim : Nat) : Option Nat :=
  let d := (s.core victim).deque
  (((List.range d.length).zip d).filter (fun p => p.2.free && p.2.readable s && dieAllowed s p.2.lctx thief
    && servesOrCan s thief p.2.lctx)).getLast?.map (·.1)

/-- A range of two or more indices splits; any other entry moves whole (R284): what the victim keeps and the thief takes. -/
def splitEntry (e : DequeEntry) : Option DequeEntry × DequeEntry :=
  match e.kind with
  | .range lo hi =>
    if lo + 2 ≤ hi then
      let m := lo + (hi - lo) / 2
      (some { e with kind := .range lo m }, { e with kind := .range m hi })
    else (none, e)
  | _ => (none, e)

/-- STEAL_REQUEST (R284): a core tries one victim in a rotation; a refusal moves it to the next. -/
def execStealRequest (core : Nat) (s : State) : Outcome :=
  if !stealDue s core then .next s else
  let victims := victimsOf s core
  let c := s.core core
  match victims[c.victim % victims.length]? with
  | none => .next s
  | some v =>
    let refuse := s.putCore core { c with asked := s.rot, victim := (c.victim + 1) % victims.length }
    match givenEntry s core v with
    | none => .next refuse
    | some i =>
      match (s.core v).deque[i]? with
      | none => .next refuse
      | some e =>
        let q := splitEntry (e.taken s)
        let d := (s.core v).deque
        let s1 := settleDeque (s.putCore v { s.core v with deque := match q.1 with
          | some k => d.set i k
          | none => d.eraseIdx i }) v
        match pushDeque s1 core q.2 with
        | .error _ => .next refuse
        | .ok s2 =>
          let s3 := takeContext s2 core e.lctx
          .next (s3.putCore core { s3.core core with asked := s.rot, victim := 0 })

/-! ### Pre-emption (R287, R145) -/

/-- The context most over its share (R287): the lower index on a tie. -/
def mostOver (s : State) (core : Nat) : Option Served :=
  let W := totalWeight s core
  let excess := fun (x : Served) => (slotsHeld s core x.lctx * W : Int) - 16 * weightOf s x.lctx
  ((s.core core).served.filter (fun x => decide (0 < excess x))).foldl (fun (best : Option Served) x =>
    match best with
    | some b => if excess b < excess x ∨ (excess b = excess x ∧ x.idx < b.idx) then some x else some b
    | none => some x) none

/-- The most recently bound thread of a context in a slot that R263 does not keep. -/
def newestBound (s : State) (core lctx : Nat) : Option (Nat × Thread) :=
  ((boundOn s core).filter (fun p => p.2.lctx.toNat == lctx && !keepsHandle s p.1 p.2)).foldl (fun (best : Option (Nat × Thread)) p =>
    match best with
    | some b => if b.2.bound < p.2.bound then some p else some b
    | none => some p) none

/-- The context that a core pre-empts for: starved for 64 rotations (R287). -/
def starvedContext (s : State) (core : Nat) : Option Served :=
  (s.core core).served.find? (fun x => decide (64 ≤ x.starved))

/-- Whether a core pre-empts a slot now: at most one in a rotation, and none while a slot already chosen has not been saved. Whether some
context is over its share is asked when the slot is chosen, not in each of the 64 rotations (log 75). -/
def starvationDue (s : State) (core : Nat) : Bool :=
  engineRuns s core && decide ((s.core core).chosen < s.rot) && (starvedContext s core).isSome
    && !((boundOn s core).any (fun p => p.2.preempt))
    && (match mostOver s core with
      | some x => (newestBound s core x.lctx).isSome
      | none => false)

/-- STARVATION_PREEMPTION (R287): the slot is chosen; PREEMPTION_SAVE saves it at its boundary. -/
def execStarvationPreemption (core : Nat) (s : State) : Outcome :=
  if !starvationDue s core then .next s else
  match (mostOver s core).bind (fun x => newestBound s core x.lctx) with
  | some (t, th) => .next ((s.putCore core { s.core core with chosen := s.rot }).putThread t { th with preempt := true })
  | none => .next s

/-- The wait of a bound thread that a pre-emption withdraws (R145 step 2, R130, R133, R261, R360): its instruction executes again
on restore. None where the wait must end first. -/
def withdrawBound (s : State) (t : Nat) (th : Thread) : Option State :=
  match th.wait with
  | none => some s
  | some (.macq _ _ _) => some (s.putThread t { th with wait := none })
  | some (.wfi _ _ []) => some (s.putThread t { th with wait := none })
  | some (.broker _ _ _ _) => some (s.putThread t { th with wait := none })
  | some (.copy _ _) => some ((dropFifo s t th).putThread t { th with wait := none })
  | _ => none

/-- Whether a bound thread stands where a pre-emption can save it: no head, not TRAPPING, no trap of its own to take first (R145 step 2), no
instruction that TRET re-executes, but for one of a retired core, which issues nothing any more (log 26). -/
def atBoundary (s : State) (th : Thread) : Bool :=
  th.isBound && th.head.isNone && th.trapUntil.isNone
    && ((th.redo.isNone && th.pending.isEmpty && th.owed.isNone) || (s.core th.core).retired)

/-- The pre-emption of a thread (R145, R287): its context leaves its slot, and the count of the context that was starved restarts; or it is
given up while cache and spill area are full, to be tried again at the next rotation boundary. -/
def saveBound (s : State) (t : Nat) : State :=
  match s.thread t with
  | some th =>
    let s1 := s.putThread t { th with preempt := false, window := none }
    match leaveSlot s1 t with
    | some s2 => match starvedContext s2 th.core with
      | some a => modServed s2 th.core a.lctx (fun x => { x with starved := 0 })
      | none => s2
    | none => s1
  | none => s

/-- PREEMPTION_SAVE (R145): a chosen slot is saved at its boundary, or the target of a CTXOUT that waits for it (R130). On a retired core
the thread moves to another core (R139). While cache and spill area are full, nothing is withdrawn, and the choice is given up. -/
def execPreemptionSave (t : Nat) (s : State) : Outcome :=
  match ctxoutOf s t with
  | some (w, x) => match x.wait with
    | some (.ctxout d _ ptr) => .next (finishCtxout s w x d t ptr)
    | _ => .next s
  | none =>
    match s.thread t with
    | none => .next s
    | some th =>
      if !th.preempt || !atBoundary s th then .next s
      else if !(s.core th.core).retired && !canSave s th.core then .next (s.putThread t { th with preempt := false })
      else match (if th.parkedBound then some s else withdrawBound s t th) with
        | none => .next s
        | some s1 => if (s.core th.core).retired then .next (moveThread s1 t) else .next (saveBound s1 t)

/-- DATAPATH_CHECK_RETIREMENT (R139): the core of a thread with a persistent residue mismatch retires, and the thread enters TVEC
with DATAPATH_CHECK where it is restored. -/
def execDatapathCheckRetirement (t : Nat) (s : State) : Outcome :=
  match s.thread t with
  | none => .next s
  | some th =>
    if !th.isBound then .next s else
    let s1 := s.putThread t { th with pending := th.pending ++ [{ cause := .datapathCheck, val := th.pc }] }
    .next ((retireCore s1 th.core).logEvent (.retired (.core th.core)) th.place.handle 0 0)

end Sys2Proof.Machine
end

