-- ==== Sys2Proof/Machine/VMem.lean ====
section
/-!
DEFINITION. Vector memory (R219 to R226): lanes, their checks, alias windows (R13, R202), quantising stores (R223), and the
event that completes a vector access (R222, R224).
-/
namespace Sys2Proof.Machine

/-- The alias window of a pointer: that of CLUSTER and PEER, 0 elsewhere (R13, R220). -/
def windowOf (ptr : Word) : Nat :=
  if ptr.extractLsb' 60 4 = 1 ∨ ptr.extractLsb' 60 4 = 2 then (ptr.extractLsb' 57 3).toNat else 0

/-- The stored element size z of a lane (R220). -/
def laneSize (ptr : Word) : Nat :=
  match windowOf ptr with
  | 1 => 1
  | 2 => 1
  | 3 => 2
  | 4 => 2
  | 5 => 1
  | 6 => 2
  | _ => 4

/-- The register form of a stored element (R202). -/
def loadForm (win v : Nat) : FRes :=
  match win with
  | 1 => fp32.widen (e4m3.decode v)
  | 2 => fp32.widen (e5m2.decode v)
  | 3 => fp32.widen (bf16.decode v)
  | 4 => fp32.widen (fp16.decode v)
  | 5 => ((signedOf 8 v % 2 ^ 32).toNat, 0)
  | 6 => ((signedOf 16 v % 2 ^ 32).toNat, 0)
  | _ => (v, 0)

/-- The stored form of a register lane (R202). -/
def storeForm (frm : BitVec 2) (win v : Nat) : FRes :=
  match win with
  | 1 => e4m3.narrow frm (fp32.decode v)
  | 2 => e5m2.narrow frm (fp32.decode v)
  | 3 => bf16.narrow frm (fp32.decode v)
  | 4 => fp16.narrow frm (fp32.decode v)
  | 5 => satInt 8 (signedOf 32 v)
  | 6 => satInt 16 (signedOf 32 v)
  | _ => (v, 0)

/-- Checks lanes in ascending order; the first failing one decides (R221). -/
def checkLanes (s : State) (th : Thread) (kind : AccessKind) (role : Role) : List (Nat × Word) → Check (List (Nat × Acc))
  | [] => .ok []
  | (i, ptr) :: rest =>
    match checkAccess s (cxOf s th) th.place.handle kind role false ptr (laneSize ptr) (laneSize ptr) with
    | .error e => .error e
    | .ok a =>
      match checkLanes s th kind role rest with
      | .error e => .error e
      | .ok l => .ok ((i, a) :: l)

/-- The enabled lanes with their pointers. -/
def lanesOf (th : Thread) (mk : MReg) (ptrOf : Nat → Word) : List (Nat × Word) :=
  ((List.range 64).filter (fun i => (th.getM mk).getLsbD i)).map (fun i => (i, ptrOf i))

/-- The page-table and TLB effects of lanes that passed their checks. -/
def touchLanes (s : State) (core : Nat) (kind : AccessKind) (l : List (Nat × Acc)) : State :=
  l.foldl (fun st p => touchAcc st (some core) kind p.2) s

/-- A vector load issues (R220, R221); with a lane on an L page its la counts as 0 (R56). -/
def runVLoad (s : State) (d : VReg) (la : BitVec 4) (mk : MReg) (ptrOf : Thread → Nat → Word) : Outcome :=
  runCheck s (fun th =>
    match checkLanes s th .load .engineLoad (lanesOf th mk (ptrOf th)) with
    | .error e => .error e
    | .ok l =>
      let lanes := l.map (fun p =>
        ({ idx := p.1, ptr := p.2.ptr, loc := p.2.loc, lpage := p.2.lpage, win := p.2.win, data := 0 } : Lane))
      .ok ((touchLanes s th.core .load l).putThread s.cur
        (th.issueHead s.cycle (.vload d lanes) (.v d) (if lanes.any (·.lpage) then 0 else la.toNat))))

/-- A vector store issues with the stored forms of its lanes (R220, R221, R202); an enabled flag traps with no byte
written. -/
def runVStore (s : State) (d : VReg) (la : BitVec 4) (mk : MReg) (ptrOf : Thread → Nat → Word) : Outcome :=
  runCheck s (fun th =>
    match checkLanes s th .store .engineStore (lanesOf th mk (ptrOf th)) with
    | .error e => .error e
    | .ok l =>
      let forms := l.map (fun p => (p, storeForm th.frm p.2.win (elemOf (th.getV d) 32 p.1)))
      let flags := forms.map (fun q => (q.1.1, q.2.2))
      match fpTrap th.ftrap flags with
      | some t => .error (some t)
      | none =>
        let lanes := forms.map (fun q =>
          ({ idx := q.1.1, ptr := q.1.2.ptr, loc := q.1.2.loc, lpage := q.1.2.lpage, win := q.1.2.win,
             data := BitVec.ofNat 64 q.2.1 } : Lane))
        .ok ((touchLanes s th.core .store l).putThread s.cur
          (th.issueHead s.cycle (.vstore lanes (orFlags (flags.map (·.2)))) .none la.toNat)))

/-- The stride of VLDS and VSTS (R220). -/
def strideOf (th : Thread) (a : Reg) : Word := sext32 (th.getX (a + 1))

/-- The offset of a lane of VGATH and VSCAT (R220). -/
def laneOffset (th : Thread) (d : VReg) (i : Nat) : Word := sext32 (BitVec.ofNat 64 (elemOf (th.getV (d + 1)) 32 i))

/-- Lane pointers of consecutive elements: P0 + i × z, with z that of P0's window (R220). -/
def denseLane (p0 : Word) (i : Nat) : Word := p0 + BitVec.ofNat 64 (i * laneSize p0)

/-- The exact quotient of an FP32 lane by a finite positive scale, as SatE4M3 under RNE: the byte, its flags, and whether
it saturated (R223, R193). -/
def quantise (sc : Nat) (v : Nat) : FRes × Bool :=
  match fp32.decode sc, fp32.decode v with
  | _, .nan sig => ((0x7F, if sig then flagNV else 0), false)
  | _, .inf neg => ((e4m3.sign neg e4m3.maxFinite, flagOF ||| flagNX), true)
  | .fin _ p g, .fin neg m e =>
    if m = 0 then ((e4m3.sign neg 0, 0), false)
    else
      let k := 80 + bitLen p
      let n := m * 2 ^ k
      let r := e4m3.round rne neg (n / p) (e - g - (k : Int)) (n % p != 0)
      let c := e4m3.code r
      if e4m3.maxFinite < c then ((e4m3.sign neg e4m3.maxFinite, flagOF ||| flagNX), true)
      else ((e4m3.sign neg c, r.flags), false)
  | _, _ => ((0x7F, flagNV), false)

/-- Whether a scale is finite and positive (R223). -/
def scaleOk (sc : Nat) : Bool :=
  match fp32.decode sc with
  | .fin neg m _ => !neg && m != 0
  | _ => false

/-- The checks of VSTQ in the order of R223, those of a CONTROL pointer first (R147): the physical address of the 64 bytes and the translation. -/
def checkVstq (s : State) (th : Thread) (ptr : Word) : Check (Nat × Hit) :=
  let cx := cxOf s th
  match spaceOf cx (clusterOfCore th.core) .store false ptr with
  | .error t => .error (some t)
  | .ok sp =>
    if ptr.extractLsb' 60 4 ≠ 0 ∧ ptr.extractLsb' 60 4 ≠ 3 then trapOf .spaceInvalid ptr else
    if ptr.toNat % 64 ≠ 0 then trapOf .storeMisaligned ptr else
    let va := match sp with
      | .global v => v
      | .priv sum => sum
      | _ => 0
    if 2 ^ 52 ≤ va + 63 then trapOf .storePageFault ptr else
    match translate s cx .store va ptr with
    | .error e => .error e
    | .ok h =>
      if !attrsOk h.entry.pte then trapOf .attributeConflict ptr
      else if !pteK h.entry.pte then trapOf .attributeConflict ptr
      else match checkKv s cx h va ptr with
        | .error e => .error e
        | .ok h' =>
          let pa := h'.entry.pa va
          if s.isBad pa 64 then trapOf .uncorrectableData ptr
          else if (ptr.extractLsb' 0 16).toNat < 64 then trapOf .storeProtection ptr
          else if watched s th.core ptr 64 then trapOf .debugWatch ptr
          else .ok (pa, h')

/-- VLD (R220). -/
def execVld (d : BitVec 4) (a : BitVec 5) (la : BitVec 4) (mk : BitVec 3) (off : BitVec 8) (s : State) : Outcome :=
  runVLoad s d la mk (fun th => denseLane (effectivePtrW th a off))

/-- VST (R220). -/
def execVst (d : BitVec 4) (a : BitVec 5) (la : BitVec 4) (mk : BitVec 3) (off : BitVec 8) (s : State) : Outcome :=
  runVStore s d la mk (fun th => denseLane (effectivePtrW th a off))

/-- VLDS (R220). -/
def execVlds (d : BitVec 4) (a : BitVec 5) (la : BitVec 4) (mk : BitVec 3) (off : BitVec 8) (s : State) : Outcome :=
  runVLoad s d la mk (fun th i => effectivePtrW th a off + BitVec.ofNat 64 i * strideOf th a)

/-- VSTS (R220). -/
def execVsts (d : BitVec 4) (a : BitVec 5) (la : BitVec 4) (mk : BitVec 3) (off : BitVec 8) (s : State) : Outcome :=
  runVStore s d la mk (fun th i => effectivePtrW th a off + BitVec.ofNat 64 i * strideOf th a)

/-- VGATH (R220). -/
def execVgath (d : BitVec 4) (a : BitVec 5) (la : BitVec 4) (mk : BitVec 3) (off : BitVec 8) (s : State) : Outcome :=
  runVLoad s d la mk (fun th i => effectivePtrW th a off + laneOffset th d i)

/-- VSCAT (R220). -/
def execVscat (d : BitVec 4) (a : BitVec 5) (la : BitVec 4) (mk : BitVec 3) (off : BitVec 8) (s : State) : Outcome :=
  runVStore s d la mk (fun th i => effectivePtrW th a off + laneOffset th d i)

/-- VSTQ (R223). -/
def execVstq (d : BitVec 4) (a : BitVec 5) (la : BitVec 4) (mk : BitVec 3) (off : BitVec 8) (s : State) : Outcome :=
  runCheck s (fun th =>
    let ptr := effectivePtrW th a off
    match checkVstq s th ptr with
    | .error e => .error e
    | .ok (pa, h) =>
      .ok ((touch s (some th.core) .store h).putThread s.cur
        (th.issueHead s.cycle (.vstq ptr pa (pa / 65536 * 65536) (th.getM mk) (th.getV d)) .none la.toNat)))

/-- Whether a lane of a load does not simply read data: a mark or a tag other than VALUE. -/
def Lane.blocked (s : State) (l : Lane) : Bool :=
  locBad s l.loc (laneSize l.ptr) || (match l.loc with
    | .dram pa => l.lpage && s.tag pa != 0
    | _ => false)

/-- Reads the lanes of a load: the register's lanes, the flags by lane and the state. -/
def readLanes (s : State) (v : List Nat) : List Lane → List Nat × List (Nat × BitVec 5) × State
  | [] => (v, [], s)
  | l :: rest =>
    let r := loadForm l.win (readLoc s l.loc (laneSize l.ptr))
    let q := readLanes (afterRead s l.loc) (v.set l.idx r.1) rest
    (q.1, (l.idx, r.2) :: q.2.1, q.2.2)

/-- The trap that a lane of a store meets at its word's tag (R317, R319): CELL_BUSY_WRITE reports the cell's address (R226, R246). -/
def Lane.busy (s : State) (th : Thread) (l : Lane) : Option Trap :=
  match storeTag s th.evalOf l.loc l.lpage l.ptr with
  | .error t => some (if t.cause = .cellBusyWrite then { t with val := cellAddr l.ptr } else t)
  | .ok _ => none

/-- The trap of the first lane of a store that its word's tag refuses (R317, R319, R226). -/
def busyLane (s : State) (th : Thread) (lanes : List Lane) : Option Trap := lanes.findSome? (Lane.busy s th)

/-- The home slices of the lanes of a core's vector or tile access have accepted its requests (R302). -/
def acceptLanes (s : State) (core : Nat) (lanes : List Lane) : State := lanes.foldl (fun st l => st.acceptLoc core l.loc) s

/-- Writes the lanes of a store in ascending order (R224). -/
def writeLanes (s : State) (th : Thread) (lanes : List Lane) : State :=
  lanes.foldl (fun st l =>
    match storeTag st th.evalOf l.loc l.lpage l.ptr with
    | .ok keep => writeLoc st keep l.loc (laneSize l.ptr) l.data.toNat
    | .error _ => st) s

/-- VSTQ's bytes, flags by lane and saturation, from the scale (R223). -/
def vstqBytes (sc : Nat) (mask : MWord) (data : VWord) : List (Nat × FRes × Bool) :=
  ((List.range 64).filter (fun i => mask.getLsbD i)).map (fun i =>
    (i, if scaleOk sc then quantise sc (elemOf data 32 i) else ((0x7F, flagNV), false)))

/-- The outstanding head of a thread completes and retires with flags raised at its own PC (R57, R95). -/
def Thread.completeWith (th : Thread) (cycle : Nat) (pc : Word) (fl : BitVec 5) : Thread :=
  (th.raise pc fl).completeHead cycle

/-- VECTOR_ACCESS_COMPLETE (R222, R223): the outstanding vector access of a thread is performed. A load lane that meets a
tag other than VALUE decides what R319 gives; a SUSPENDED one waits for EVALUATION_START. -/
def execVectorAccessComplete (t : Nat) (s : State) : Outcome :=
  match s.thread t with
  | some th =>
    match th.head with
    | some { op := .vload d lanes, pc := pc, retired := k, .. } =>
      if lanes.any (fun l => lineHeld s l.loc (laneSize l.ptr)) then .next s else
      match lanes.find? (Lane.blocked s) with
      | some l =>
        if locBad s l.loc (laneSize l.ptr) then .next (s.trapHead t { cause := .uncorrectableData, val := l.ptr } k)
        else match loadTag s t l.loc l.lpage l.ptr .again with
          | .error (some tr) => .next (s.trapHead t tr 0)
          | .error none => .next s
          | .ok (some s') => .next s'
          | .ok none => .next s
      | none =>
        let r := readLanes s (elemsOf (th.getV d) 32) lanes
        match fpTrap th.ftrap r.2.1 with
        | some tr => .next (s.trapHead t tr 0)
        | none => .next ((acceptLanes r.2.2 th.core lanes).putThread t
            ((th.setV d (vOfElems 32 r.1)).completeWith s.cycle pc (orFlags (r.2.1.map (·.2)))))
    | some { op := .vstore lanes fl, pc := pc, retired := k, .. } =>
      if lanes.any (fun l => lineHeld s l.loc (laneSize l.ptr)) then .next s else
      match busyLane s th lanes with
      | some tr => .next (s.trapHead t tr (if tr.cause = .uncorrectableData then k else 0))
      | none => .next ((acceptLanes (writeLanes s th lanes) th.core lanes).putThread t (th.completeWith s.cycle pc fl))
    | some { op := .vstq ptr pa hdr mask data, pc := pc, retired := k, .. } =>
      if lineHeld s (.dram pa) 64 || lineHeld s (.dram hdr) 8 then .next s
      else if s.isBad hdr 4 then .next (s.trapHead t { cause := .uncorrectableData, val := ptr } k)
      else
        let bytes := vstqBytes (s.mem.readLE hdr 4) mask data
        let flags := bytes.map (fun b => (b.1, b.2.1.2))
        match fpTrap th.ftrap flags with
        | some tr => .next (s.trapHead t tr 0)
        | none =>
          let s1 := bytes.foldl (fun st b => st.storePa none (pa + b.1) 1 b.2.1.1) s
          let s2 := if bytes.any (·.2.2) then s1.storePa none (hdr + 4) 4 (s1.mem.readLE (hdr + 4) 4 ||| 1) else s1
          .next (((s2.acceptPort th.core pa).acceptPort th.core hdr).putThread t (th.completeWith s.cycle pc (orFlags (flags.map (·.2)))))
    | _ => .next s
  | none => .next s

end Sys2Proof.Machine
end

