-- ==== Sys2Proof/Machine/Events.lean ====
section
/-!
DEFINITION. Events of a thread: trap entry (R134, R137), the end of TRAPPING (R85), the watchdog (R146), single-step (R376),
time limits and wakes of waiting instructions (R133, R265, R365), the start of an evaluation (R321), and the directory (R301).
-/
namespace Sys2Proof.Machine

/-! ### Pending traps (R137) -/

/-- The rank of a pending cause (R137): the events in their order, then the traps of an instruction. -/
def Cause.rank : Cause → Nat
  | .machineCheck => 0
  | .haltedByManagement => 1
  | .watchdog => 2
  | .copyFault => 3
  | .debugStep => 4
  | _ => 5

/-- The traps that a thread has to take: those pending, and the one owed at its PC. -/
def Thread.toTake (th : Thread) : List Trap :=
  th.pending ++ (match th.owed with
    | some (pc, tr) => if pc = th.pc then [tr] else []
    | none => [])

/-- The pending trap that a thread takes next: the first of the highest rank. An instruction that TRET re-executes runs before an
event is taken. -/
def Thread.nextTrap (th : Thread) : Option Trap :=
  (th.toTake.filter (fun t => th.redo.isNone || t.cause.rank == 5)).foldl (fun (best : Option Trap) t =>
    match best with
    | some b => if t.cause.rank < b.cause.rank then some t else some b
    | none => some t) none

/-- A thread that takes one of its traps: the events stay pending, and an instruction's own trap recurs when it issues again (R137). That
of a barrier phase that has ended cannot recur, since its wait is over: it is owed at the PC of its BARW or BAR (R269; log 24). DESIGN CHOICE
(log 77): a MEET_MULT_OVERFLOW that an event precedes is dropped; a TRET to the MEET arrives again with the departed state (R169). -/
def Thread.taking (th : Thread) (tr : Trap) : Thread :=
  if tr.cause.rank < 5 then
    { th with pending := (th.pending.erase tr).filter (fun t => decide (t.cause.rank < 5)),
              owed := match th.pending.find? (fun t => t.cause == .barrierFpCollected) with
                | some x => some (th.pc, x)
                | none => th.owed }
  else if th.pending.contains tr then { th with pending := th.pending.erase tr }
  else { th with owed := none }

/-- Whether a thread takes a pending trap now: bound on a core in service, at an instruction boundary. A thread of a core that retires
moves first (R139). -/
def trapDue (s : State) (th : Thread) : Bool :=
  th.isBound && !(s.core th.core).retired && th.head.isNone && th.wait.isNone && th.trapUntil.isNone && th.nextTrap.isSome

/-- TRAP_ENTRY (R134, R137): the pending trap of highest rank is taken at the thread's next instruction. -/
def execTrapEntry (t : Nat) (s : State) : Outcome :=
  match s.thread t with
  | none => .next s
  | some th =>
    if !trapDue s th then .next s else
    match th.nextTrap with
    | none => .next s
    | some tr =>
      let tr1 : Trap := if tr.cause = .debugStep then { tr with val := th.pc } else tr
      .next ((s.putThread t (th.taking tr)).takeTrapAt t th.pc tr1 (if tr.cause = .linkReset then th.skip else 0))

/-- TRAPPING_PERIOD_END (R85): 16 cycles after it began, TRAPPING ends. -/
def execTrappingPeriodEnd (t : Nat) (s : State) : Outcome :=
  match s.thread t with
  | none => .next s
  | some th =>
    match th.trapUntil with
    | some c => if s.cycle < c then .next s else .next (s.putThread t { th with trapUntil := none })
    | none => .next s

/-- DEBUG_STEP (R137, R376): Helben single-steps a bound thread. -/
def execDebugStep (t : Nat) (s : State) : Outcome :=
  match s.thread t with
  | none => .next s
  | some th =>
    if !th.isBound || th.pending.any (fun p => p.cause == .debugStep) then .next s
    else .next (s.putThread t { th with pending := th.pending ++ [{ cause := .debugStep, val := 0 }] })

/-! ### The watchdog (R146) -/

/-- Whether a thread is parked: it holds no slot and waits. -/
def Thread.isParked (th : Thread) : Bool :=
  match th.place with
  | .cached _ => th.wait.isSome
  | .spilled _ _ => th.wait.isSome
  | _ => false

/-- Whether a thread's count exceeds WDOG (R146). -/
def watchdogDue (s : State) (th : Thread) : Bool :=
  let limit := (s.core th.core).wdog.toNat
  (th.isBound || th.isParked) && limit != 0 && decide (limit < s.cycle / 16 - th.lastRetire)
    && !clusterHalted s (clusterOfCore th.core) && !th.pending.any (fun p => p.cause == .watchdog)

/-- The EVAL of a thread's WATCHDOG: its park kind, 0 for a thread BUSY in its slot (R146). -/
def watchdogVal (th : Thread) : Word := if th.isBound then 0 else BitVec.ofNat 64 ((th.wait.map Wait.parkKind).getD 0)

/-- The withdrawal of a wait by the watchdog or a stop halt, with the trap that its thread takes (R146, R149). An access on its way
to a slice, and a BAREX that this cycle applies, end first. The trap is taken at the waiting instruction, one that TRET re-executes among
them (R127, R335). -/
def withdrawWith (s : State) (t : Nat) (th : Thread) (tr : Trap) : State :=
  let atEnd := s.putThread t { th with pending := th.pending ++ [tr] }
  let s1 := s.putThread t { th with redo := none }
  match th.wait with
  | some (.atom _) => atEnd
  | some (.smerge _) => atEnd
  | some (.barex _ _ _ _) => atEnd
  | some (.meet _ bank entry) => departEntry s1 bank entry true (some tr)
  | some (.cell pa _ _) => (leaveCell s1 t pa).failWait t tr
  | some (.copy _ _) => (dropFifo s1 t { th with redo := none }).failWait t tr
  | some _ => s1.failWait t tr
  | none => atEnd

/-- WATCHDOG_EXPIRY (R146): the wait is withdrawn and WATCHDOG is pending; the count starts again. -/
def execWatchdogExpiry (t : Nat) (s : State) : Outcome :=
  match s.thread t with
  | none => .next s
  | some th =>
    if !watchdogDue s th then .next s else
    let th1 := { th with lastRetire := s.cycle / 16 }
    .next (withdrawWith (s.putThread t th1) t th1 { cause := .watchdog, val := watchdogVal th })

/-! ### Limits and wakes -/

/-! ### WFI at the end of a cycle (R133, R365) -/

/-- The lowest reason code that has reached a WFI in a cycle, if one has (R133): `bell` says that its cluster's doorbell is pending. -/
def wfiReason (bell : Bool) (reached : List Nat) : Option Nat :=
  match if bell then 1 :: reached else reached with
  | [] => none
  | c :: rest => some (rest.foldl min c)

/-- The reason with which a bound thread's WFI completes in a state. -/
def wfiDone (s : State) (th : Thread) : Option (Reg × Nat) :=
  match th.wait with
  | some (.wfi d _ reached) => (wfiReason (s.cluster (clusterOfCore th.core)).doorbell reached).map (fun c => (d, c))
  | _ => none

/-- The end of a cycle for the threads in WFI: each that something has reached completes with the lowest of its reasons, and a doorbell that
completed one with reason 1 is no longer pending (R133, R365). -/
def endWfis (s : State) : State :=
  let done := s.threads.filterMap (fun p => if p.2.isBound then (wfiDone s p.2).map (fun q => (p.1, p.2, q)) else none)
  let rung := done.filterMap (fun p => if p.2.2.2 = 1 then some (clusterOfCore p.2.1.core) else none)
  let s1 := done.foldl (fun st p => st.finishWait p.1 (fun x => x.setX p.2.2.1 (BitVec.ofNat 64 p.2.2.2))) s
  rung.foldl (fun st k => st.putCluster k { st.cluster k with doorbell := false }) s1

/-- WFI_TIMEOUT (R133): it comes after `endWfis`, so that nothing else has reached the WFI in this cycle. -/
def execWfiTimeout (t : Nat) (s : State) : Outcome :=
  match s.thread t with
  | none => .next s
  | some th =>
    match th.wait with
    | some (.wfi d (some limit) reached) =>
      if s.cycle < limit then .next s
      else .next (s.finishWait t (fun x => x.setX d (BitVec.ofNat 64 (reached.foldl min 3))))
    | _ => .next s

/-- WAITM_TIMEOUT (R265). -/
def execWaitmTimeout (t : Nat) (s : State) : Outcome :=
  match s.thread t with
  | none => .next s
  | some th =>
    match th.wait with
    | some (.waitm d (some limit)) => if s.cycle < limit then .next s else .next (s.finishWait t (fun x => x.setX d 0))
    | _ => .next s

/-- HELBEN_NOTIFICATION (R133, R378): a WFI of the handle's thread completes with reason 2 at the end of the cycle. -/
def execHelbenNotification (handle : Nat) (s : State) : Outcome :=
  match s.inSlot handle with
  | some (t, _) => .next (reachWfi s t 2)
  | none => .next s

/-- A doorbell rings (R365): the bit is set; the threads of the cluster in WFI complete at the end of the cycle. -/
def ringDoorbell (s : State) (cluster : Nat) : State := s.putCluster cluster { s.cluster cluster with doorbell := true }

/-- DOORBELL_RING (R365). -/
def execDoorbellRing (cluster : Nat) (s : State) : Outcome :=
  if cluster < 144 then .next (ringDoorbell s cluster) else .next s

/-! ### Evaluations (R321) -/

/-- The access of a thread that has met a SUSPENDED word: the word's address, the pointer and how it waits. -/
def suspendedAccess (s : State) (th : Thread) : Option (Nat × Word × CellUse) :=
  let at_ := fun (loc : Loc) (lpage : Bool) (ptr : Word) (n : Nat) (use : CellUse) =>
    match loc with
    | .dram pa =>
      if lpage && s.tag pa == 1 && !isRemotePtr ptr && !lineHeld s loc n && !locBad s loc n then some (pa / 8 * 8, ptr, use) else none
    | _ => none
  match th.head, th.wait with
  | some h, _ =>
    match h.op with
    | .load d size sext ptr loc lpage => at_ loc lpage ptr size (.load d (ptr.toNat % 8) size sext)
    | .vload _ lanes =>
      if lanes.any (fun l => lineHeld s l.loc (laneSize l.ptr)) then none else
      match lanes.find? (Lane.blocked s) with
      | some l => at_ l.loc l.lpage l.ptr (laneSize l.ptr) .again
      | none => none
    | .cells _ pa ptr => at_ (.dram pa) true ptr 8 .again
    | _ => none
  | none, some (.atom r) => if r.staged then none else at_ r.loc r.lpage r.ptr r.size (.atom r)
  | _, _ => none

/-- EVALUATION_START (R321): an access that found SUSPENDED starts the evaluation and parks, or traps. -/
def execEvaluationStart (t : Nat) (s : State) : Outcome :=
  match s.thread t with
  | none => .next s
  | some th =>
    match suspendedAccess s th with
    | none => .next s
    | some (pa, ptr, use) =>
      match startEvaluation s t pa ptr use with
      | .ok s1 => .next s1
      | .error none => .next s
      | .error (some tr) => if th.head.isSome then .next (s.trapHead t tr 0) else .next (s.takeTrap t tr)

/-! ### The directory (R301, R302) -/

/-- A line's directory state after a request (R301): by a core's L1, or by the cache of its cluster. -/
def dirAfter (d : Option DirState) (core : Nat) (kind : LineKind) : Option DirState :=
  let cl := clusterOfCore core
  match kind with
  | .evict => none
  | .write => some (.ownedCore core)
  | .clusterWrite => some (.ownedCluster cl)
  | .clusterRead => match d with
    | some (.shared l) => some (.coarse (l.map clusterOfCore ++ [cl]).eraseDups)
    | some (.coarse l) => some (.coarse (if l.contains cl then l else l ++ [cl]))
    | some (.ownedCluster c) => if c = cl then d else some (.coarse [cl])
    | _ => some (.coarse [cl])
  | .read => match d with
    | some (.shared l) =>
      if l.contains core then some (.shared l)
      else if l.length < 4 then some (.shared (l ++ [core]))
      else some (.coarse ((l ++ [core]).map clusterOfCore).eraseDups)
    | some (.coarse l) => some (.coarse (if l.contains cl then l else l ++ [cl]))
    | some (.ownedCore c) => if c = core then d else some (.shared [core])
    | _ => some (.shared [core])

/-- COHERENT_LINE_REQUEST (R301, R302): the home slice accepts a request for a line after it has recalled the copies that the
directory names, or evicts the line after it has recalled them all; a line that a copy engine owns holds it (R23). No value changes. -/
def execCoherentLineRequest (core line : Nat) (kind : LineKind) (s : State) : Outcome :=
  if 4608 ≤ core ∨ dramEnd ≤ line * 32 ∨ lineHeld s (.dram (line * 32)) 32 = true then .next s
  else
    let s1 := if kind = .evict then s else s.acceptPort core (line * 32)
    .next { s1 with dir := match dirAfter (s.dir.find line) core kind with
      | some d => s1.dir.put line d
      | none => s1.dir.drop line }

end Sys2Proof.Machine
end

