-- ==== Sys2Proof/Machine/Partition.lean ====
section
/-!
DEFINITION. Partition halt, release and swap (R149, R150), and the ends of REMOTE accesses without a response (R149, R369).
-/
namespace Sys2Proof.Machine

/-- The clusters of a partition (R149). -/
def clustersOf (s : State) (pid : Nat) : List Nat :=
  (List.range 144).filter (fun c => (s.cluster c).partId == pid && !(s.cluster c).retired)

/-- Whether a thread is bound, parked or saved on a core of a partition. -/
def inPartition (s : State) (pid : Nat) (th : Thread) : Bool :=
  (s.cluster (clusterOfCore th.core)).partId == pid && (match th.place with
    | .out _ _ => false
    | .swapped _ _ _ _ => false
    | _ => true)

/-- Whether a bound thread has been brought to a boundary for a halt (R149 step 2): nothing of it is outstanding but a wait with a
park kind or a request that stays queued. -/
def Thread.settled (th : Thread) : Bool :=
  !th.isBound || (th.head.isNone && th.trapUntil.isNone && (match th.wait with
    | none => true
    | some (.copy _ _) => true
    | some w => w.parkKind != 0))

/-- Whether a halted partition has come to rest: every slot at a boundary and every copy engine idle (R149). -/
def haltDone (s : State) (pid : Nat) : Bool :=
  s.threads.all (fun p => !inPartition s pid p.2 || p.2.settled)
    && (clustersOf s pid).all (fun c => (s.cluster c).jobs.isEmpty)

/-- A partition of up to 8 clusters begins to halt (R149, R6): MACQ, WFI and broker requests are withdrawn as a pre-emption withdraws them,
and a CTXOUT that waits, of which the spec says nothing (log 26). -/
def haltPartition (s : State) (pid : Nat) (stop : Bool) (reason : Word) : State :=
  if (s.helben.halts.find pid).isSome || decide (8 < (clustersOf s pid).length) then s else
  let s1 := { s with threads := s.threads.map (fun (p : Nat × Thread) =>
    if inPartition s pid p.2 && p.2.isBound then
      match p.2.wait with
      | some (.macq _ _ _) => (p.1, { p.2 with wait := none })
      | some (.wfi _ _ []) => (p.1, { p.2 with wait := none })
      | some (.ctxout _ _ _) => (p.1, { p.2 with wait := none })
      | some (.broker _ _ _ _) => (p.1, { p.2 with wait := none })
      | _ => p
    else p) }
  (s1.modHelben (fun h => { h with halts := h.halts.put pid { stop := stop, reason := reason, since := s.cycle } })).logEvent
    .halt 0 (BitVec.ofNat 64 pid) reason

/-- PARTITION_HALT (R149). -/
def execPartitionHalt (pid : Nat) (stop : Bool) (reason : Word) (s : State) : Outcome :=
  .next (haltPartition s pid stop reason)

/-- The requests that the copy engines of some clusters still hold end without their signals, and their lines are free: so a halt ends that
only such a request keeps from its rest (log 80). -/
def dropJobs (s : State) (clusters : List Nat) : State :=
  let jobs := (clusters.map (fun c => (s.cluster c).jobs)).flatten
  let s1 := clusters.foldl (fun st c => if (st.cluster c).jobs.isEmpty then st else st.putCluster c { st.cluster c with jobs := [] }) s
  flushLate (jobs.foldl (fun st j => if j.req.signal = 1 then endCopy st
    { slot := 0, m0 := 0, m1 := 0, copyOf := some { tid := j.req.tid, fifo := j.req.fifo, last := true } } else st) s1)

/-- HALT_LIMIT_EXPIRY (R149): a halt that has waited longer than Helben's limit ends in MACHINE_CHECK for the threads still
waiting. -/
def execHaltLimitExpiry (pid : Nat) (s : State) : Outcome :=
  match s.helben.halts.find pid with
  | none => .next s
  | some h =>
    if haltDone s pid || decide (s.cycle ≤ h.since + s.helben.haltLim) then .next s else
    let late := (s.threads.filter (fun p => inPartition s pid p.2 && !p.2.settled)).map (·.1)
    .next ((dropJobs (late.foldl (fun st t => st.machineCheck t h.reason) s) (clustersOf s pid)).logEvent .haltLimit 0
      (BitVec.ofNat 64 pid) h.reason)

/-- The pointers and device numbers of the lanes of a vector access that go to other packages. -/
def remoteLanes (lanes : List Lane) : List (Word × Nat) :=
  lanes.filterMap (fun l => match l.loc with
    | .remote dev _ => some (l.ptr, dev)
    | _ => none)

/-- The pointers and device numbers of a thread's outstanding REMOTE accesses to other packages, in lane order. -/
def remoteAccesses (th : Thread) : List (Word × Nat) :=
  match th.head, th.wait with
  | some { op := .load _ _ _ ptr (.remote dev _) _, .. }, _ => [(ptr, dev)]
  | some { op := .store _ ptr _ (.remote dev _) _, .. }, _ => [(ptr, dev)]
  | some { op := .vload _ lanes, .. }, _ => remoteLanes lanes
  | some { op := .vstore lanes _, .. }, _ => remoteLanes lanes
  | none, some (.atom r) => match r.loc with
    | .remote dev _ => [(r.ptr, dev)]
    | _ => []
  | _, _ => []

/-- The first of them. -/
def remoteAccess (th : Thread) : Option (Word × Nat) := (remoteAccesses th).head?

/-- HALT_REMOTE_TIMEOUT (R149): a REMOTE access that does not complete within 2 ^ 20 cycles of a halt ends in LINK_RESET, which stays
pending at its PC. -/
def execHaltRemoteTimeout (t : Nat) (s : State) : Outcome :=
  match s.thread t with
  | none => .next s
  | some th =>
    match remoteAccess th, s.helben.halts.find (s.cluster (clusterOfCore th.core)).partId with
    | some (ptr, _), some h =>
      if s.cycle < h.since + 2 ^ 20 then .next s else
      let tr : Trap := { cause := .linkReset, val := ptr }
      match th.head with
      | some hd => .next (s.putThread t
          { th with head := none, window := none, pc := hd.pc, redo := none, skip := hd.retired, pending := th.pending ++ [tr] })
      | none => .next (s.putThread t { th with wait := none, skip := 0, pending := th.pending ++ [tr] })
    | _, _ => .next s

/-- Whether a link serves a REMOTE device number or direction code (R370, R371): in switched mode any link may. -/
def linkServes (f : Fabric) (link dev : Nat) : Bool :=
  !f.torus || (link / 4 == dev / 16 % 4 && link / 2 % 2 == dev / 8 % 2)

/-- Whether an access that issued in a cycle is without a response 2 ^ 20 cycles after a reset of a link that serves it (R369). -/
def responseLost (s : State) (issued dev : Nat) : Bool :=
  s.fabric.resetAt.any (fun p => linkServes s.fabric p.1 dev
    && p.2.any (fun c => decide (issued ≤ c) && decide (c + 2 ^ 20 ≤ s.cycle)))

/-- REMOTE_RESPONSE_TIMEOUT (R369): a REMOTE access still without a response 2 ^ 20 cycles after a reset of its link traps LINK_RESET; of a
vector access the first such lane. -/
def execRemoteResponseTimeout (t : Nat) (s : State) : Outcome :=
  match s.thread t with
  | none => .next s
  | some th =>
    let issued := match th.head with
      | some h => h.since
      | none => th.lastIssue.getD 0
    match (remoteAccesses th).find? (fun a => responseLost s issued a.2) with
    | some (ptr, _) =>
      let tr : Trap := { cause := .linkReset, val := ptr }
      match th.head with
      | some h => .next (s.trapHead t tr h.retired)
      | none => .next (s.takeTrap t tr)
    | none => .next s

/-- PARTITION_RELEASE (R149): after a suspend halt every thread resumes; after a stop halt each takes HALTED_BY_MANAGEMENT. -/
def execPartitionRelease (pid : Nat) (s : State) : Outcome :=
  match s.helben.halts.find pid with
  | none => .next s
  | some h =>
    if !haltDone s pid then .next s else
    let s1 := s.modHelben (fun x => { x with halts := x.halts.drop pid })
    if !h.stop then .next s1 else
    let tr : Trap := { cause := .haltedByManagement, val := h.reason }
    .next ((s1.threads.filter (fun p => inPartition s1 pid p.2)).foldl (fun st p =>
      match st.thread p.1 with
      | some th => withdrawWith st p.1 th tr
      | none => st) s1)

/-! ### Swap (R150) -/

/-- A wait names its cluster or bank under a number above those of the package while its partition is swapped out. -/
def Wait.rename (f g : Nat → Nat) : Wait → Wait
  | .meet d bank entry => .meet d (g bank) entry
  | .barw d cluster id parity => .barw d (f cluster) id parity
  | .qres d bank ptr => .qres d (g bank) ptr
  | .qacq d bank ptr => .qacq d (g bank) ptr
  | w => w

/-- A thread's place in the image of its partition: 0 bound, 1 cached, 2 spilled, 3 about to be bound. -/
def swapOutPlace (pid : Nat) : Place → Place
  | .slot h => .swapped pid 0 h 0
  | .cached h => .swapped pid 1 h 0
  | .spilled h i => .swapped pid 2 h i
  | .arriving h => .swapped pid 3 h 0
  | p => p

/-- The place that a thread returns to. -/
def swapInPlace : Place → Place
  | .swapped _ 0 h _ => .slot h
  | .swapped _ 1 h _ => .cached h
  | .swapped _ 2 h i => .spilled h i
  | .swapped _ _ h _ => .arriving h
  | p => p

/-- Whether a thread is in the image of a partition. -/
def isSwapped (pid : Nat) (p : Place) : Bool :=
  match p with
  | .swapped q _ _ _ => q == pid
  | _ => false

/-- A thread is saved with its partition; its watchdog count stands while it is out. -/
def swapOutThread (pid cycle : Nat) (th : Thread) : Thread :=
  { th with place := swapOutPlace pid th.place, wait := th.wait.map (Wait.rename (· + 144) (· + 4608)),
            lastRetire := cycle / 16 - th.lastRetire }

/-- A thread is loaded with its partition. -/
def swapInThread (cycle : Nat) (th : Thread) : Thread :=
  { th with place := swapInPlace th.place, wait := th.wait.map (Wait.rename (· - 144) (· - 4608)),
            lastRetire := cycle / 16 - th.lastRetire }

/-- The bytes of a cluster's banks. -/
def clusterSram (m : Memory) (clusters : List Nat) : Memory := m.filter (fun c => clusters.contains (c.1 / 2 ^ 22))

/-- The image of a partition (R150): its clusters, its cores and the contents of their banks. TLBs are invalidated. -/
def saveImage (s : State) (clusters : List Nat) (h : HaltRec) : Shadow :=
  { clusters := (s.clusters.filter (fun p => clusters.contains p.1)).map (fun p => (p.1, { p.2 with tlb := [] })),
    cores := (s.cores.filter (fun p => clusters.contains (clusterOfCore p.1))).map (fun p => (p.1, { p.2 with tlb := [], icache := [] })),
    sram := clusterSram s.sram clusters, badSram := s.badSram.filter (fun p => clusters.contains (p.1 / 2 ^ 19)), halt := h, good := true }

/-- Puts the entries of one table into another. -/
def SMap.putAll {α : Type} (m : SMap α) (l : SMap α) : SMap α := l.foldl (fun x p => x.put p.1 p.2) m

/-- Writes the bytes of one memory into another. -/
def Memory.writeAll (m : Memory) (l : Memory) : Memory := l.foldl (fun x c => x.write c.1 c.2) m

/-- What a core's place holds once its partition has left: a retired core stays retired (R380). -/
def leftCores (s : State) (clusters : List Nat) : SMap Core :=
  (s.cores.filter (fun p => !clusters.contains (clusterOfCore p.1) || p.2.retired)).map (fun p =>
    if clusters.contains (clusterOfCore p.1) then (p.1, { Core.reset with retired := true }) else p)

/-- A halted partition leaves its clusters (R150). -/
def swapOut (s : State) (pid : Nat) (clusters : List Nat) (h : HaltRec) : State :=
  { s with
      clusters := s.clusters.filter (fun p => !clusters.contains p.1),
      cores := leftCores s clusters,
      sram := s.sram.filter (fun c => !clusters.contains (c.1 / 2 ^ 22)),
      badSram := s.badSram.filter (fun p => !clusters.contains (p.1 / 2 ^ 19)),
      threads := s.threads.map (fun p => if inPartition s pid p.2 then (p.1, swapOutThread pid s.cycle p.2) else p),
      helben := { s.helben with halts := s.helben.halts.drop pid,
                                shadows := s.helben.shadows.put pid (saveImage s clusters h) } }

/-- A partition's image returns to its clusters (R150), halted as it was, to cores that are retired or not as they are now (R380); a
spilled record is written again, so that a wake that reached it shows (R99). -/
def swapIn (s : State) (pid : Nat) (x : Shadow) : State :=
  let back := (s.threads.filter (fun p => isSwapped pid p.2.place)).map (·.1)
  let s1 := { s with
      clusters := s.clusters.putAll x.clusters,
      cores := s.cores.putAll (x.cores.map (fun p => (p.1, { p.2 with retired := (s.core p.1).retired }))),
      sram := s.sram.writeAll x.sram,
      badSram := s.badSram.putAll x.badSram,
      threads := s.threads.map (fun p => if isSwapped pid p.2.place then (p.1, swapInThread s.cycle p.2) else p),
      helben := { s.helben with halts := s.helben.halts.put pid x.halt, shadows := s.helben.shadows.drop pid } }
  back.foldl rewriteSpilled s1

/-- A partition without an image starts empty on the clusters: every bank in CACHE mode, every slot EMPTY. -/
def freshPartition (s : State) (pid : Nat) (clusters : List Nat) : State :=
  clusters.foldl (fun st c => st.putCluster c { Cluster.reset with partId := pid }) s

/-- PARTITION_SWAP (R150): out goes a halted partition at rest, of up to 8 clusters (R6), in comes another onto the clusters that it left. An
image that fails its check raises CONTEXT_SWAP_ERROR to Helben and stays out; its address in Helben's storage, which the spec gives no
layout, is a free value (R138; log 29). -/
def execPartitionSwap (out load : Nat) (s : State) : Outcome :=
  match s.helben.halts.find out with
  | none => .next s
  | some h =>
    let clusters := clustersOf s out
    if out = load ∨ haltDone s out = false ∨ (clustersOf s load).isEmpty = false ∨ 8 < clusters.length then .next s else
    match s.helben.shadows.find load with
    | some x =>
      if (x.clusters.map (·.1)).any (fun c => !clusters.contains c) then .next s
      else if !x.good then
        .next { s.logEvent .contextSwapError 0 (Config.freeValue s.free) (BitVec.ofNat 64 load) with free := s.free + 1 }
      else .next (swapIn (swapOut s out clusters h) load x)
    | none => .next (freshPartition (swapOut s out clusters h) load clusters)

end Sys2Proof.Machine
end

