-- ==== Sys2Proof/Machine/Endpoint.lean ====
section
/-!
DEFINITION. The host's endpoint (R364 to R367) and the fabric's events (R368, R369, R372).
-/
namespace Sys2Proof.Machine

/-- The host translates with the table and ASID that Helben binds to it (R364). -/
def hostCx (s : State) : Cx :=
  { core := none, die := 0, mode := .supervisor, asid := s.helben.hostAsid, ptbase := s.helben.hostRoot, privbase := 0 }

/-- Translates each byte of a host access through BAR 2, whose window of 64 GiB begins at device virtual address 0 (R364; log 11); the trap
where the table refuses one, and a wait for a line that a copy engine owns (R23). -/
def hostBytes (s : State) (kind : AccessKind) (va : Nat) : Nat → Check (List (Nat × Hit))
  | 0 => .ok []
  | n + 1 =>
    if 2 ^ 36 ≤ va then trapOf (pageFaultOf kind) (BitVec.ofNat 64 va) else
    match walkHit s (hostCx s) kind va (BitVec.ofNat 64 va) with
    | .error e => .error e
    | .ok h =>
      if lineHeld s (.dram (h.entry.pa va)) 1 then stall else
      match hostBytes s kind (va + 1) n with
      | .error e => .error e
      | .ok l => .ok ((h.entry.pa va, h) :: l)

/-- The host access is refused: Unsupported Request, logged (R364). -/
def refuseHost (s : State) (va : Word) : State :=
  { s.logEvent .hostRefused 0 va 0 with host := { s.host with reply := none } }

/-- What a host access that the table admits does beside its bytes: the A and M bits of its walks (R154), and the acceptance at Helben's port
of its lines' home slices (R302). -/
def touchHost (s : State) (kind : AccessKind) (l : List (Nat × Hit)) : State :=
  l.foldl (fun st p => (touch st none kind p.2).acceptAt 39 p.1) s

/-- The byte at an offset of BAR 0 (R364): the MSI-X table and the pending bits; every other offset but a doorbell reads zero. -/
def bar0Byte (h : HostLink) (off : Nat) : Byte :=
  if off < 0x8000 then h.msix.read off
  else if off < 0x8100 then
    BitVec.ofNat 8 (((List.range 8).map (fun i => if h.pending.contains ((off - 0x8000) * 8 + i) then 2 ^ i else 0)).foldl (· + ·) 0)
  else 0

/-- Whether an offset of BAR 0 is that of a doorbell register (R364). -/
def isDoorbell (off : Nat) : Bool := decide (0x10000 ≤ off) && decide (off < 0x10000 + 8 * 144)

/-- A host read of BAR 0 (R364); what a doorbell register reads as the spec does not say (log 11). -/
def readBar0 (s : State) (off n : Nat) : State :=
  let v := ((List.range n).map (fun i => bar0Byte s.host (off + i))).foldr (fun b acc => b.toNat + 256 * acc) 0
  if isDoorbell off then
    { s with free := s.free + 1, host := { s.host with reply := some ((Config.freeValue s.free).toNat % 2 ^ (8 * n)) } }
  else { s with host := { s.host with reply := some v } }

/-- HOST_BAR2_READ (R364): the raw bytes; it starts nothing. A read of BAR 0 has no row of its own and comes here. -/
def execHostBar2Read (place : HostPlace) (n : Nat) (s : State) : Outcome :=
  if n = 0 then .next s else
  match place with
  | .bar0 off => if off + n ≤ 2 ^ 20 then .next (readBar0 s off n) else .next s
  | .bar2 va =>
    match hostBytes s .load va.toNat n with
    | .error none => .next s
    | .error (some _) => .next (refuseHost s va)
    | .ok l =>
      if l.any (fun p => s.isBad p.1 1) then .next (refuseHost s va)
      else
        let v := l.foldr (fun p acc => (s.mem.read p.1).toNat + 256 * acc) 0
        let s1 := touchHost s .load l
        .next { s1 with host := { s1.host with reply := some v } }

/-- HOST_BAR2_WRITE (R364): tags become VALUE; a write that touches an EVALUATING word of an L page is refused whole. -/
def execHostBar2Write (va : Word) (n data : Nat) (s : State) : Outcome :=
  if n = 0 then .next s else
  match hostBytes s .store va.toNat n with
  | .error none => .next s
  | .error (some _) => .next (refuseHost s va)
  | .ok l =>
    if l.any (fun p => pteL p.2.entry.pte && s.tag p.1 == 2) then .next (refuseHost s va)
    else
      let s1 := ((List.range n).zip l).foldl (fun st p => st.storePa none p.2.1 1 (data / 256 ^ p.1 % 256))
        (touchHost s .store l)
      .next { s1 with host := { s1.host with reply := some 0 } }

/-- A pending vector is sent once its entry is enabled and unmasked (R366). -/
def sendPending (h : HostLink) : HostLink :=
  let ready := h.pending.filter (fun v => msixEnabled h v && !msixMasked h v)
  { h with pending := h.pending.filter (fun v => !ready.contains v), sent := ready.reverse ++ h.sent }

/-- HOST_BAR0_WRITE (R364 to R366): of the bytes written, those of the MSI-X table are kept, and every doorbell with one among them rings.
Every other offset ignores the write. -/
def execHostBar0Write (off n data : Nat) (s : State) : Outcome :=
  let k := min n (0x8000 - off)
  let s1 := if k = 0 then s else { s with host := sendPending { s.host with msix := s.host.msix.writeLE off k data } }
  .next (((List.range 144).filter (fun c => decide (off < 0x10000 + 8 * c + 8) && decide (0x10000 + 8 * c < off + n))).foldl ringDoorbell s1)

/-- The effect of either reset of the endpoint (R367): the MSI-X table and every doorbell are cleared, those of partitions that are
swapped out too, and requests in flight complete as Unsupported Request. -/
def resetEndpoint (s : State) : State :=
  { s with host := { s.host with msix := [], reply := none },
           clusters := s.clusters.map (fun p => (p.1, { p.2 with doorbell := false })),
           helben := { s.helben with shadows := s.helben.shadows.map (fun p => (p.1, { p.2 with
             clusters := p.2.clusters.map (fun q => (q.1, { q.2 with doorbell := false })) })) } }

/-- FUNCTION_LEVEL_RESET (R367). -/
def execFunctionLevelReset (s : State) : Outcome := .next (resetEndpoint s)

/-- CONVENTIONAL_RESET (R367). -/
def execConventionalReset (s : State) : Outcome := .next (resetEndpoint s)

/-! ### Links -/

/-- A link is reset and retrained (R368, R369): launches with a REMOTE access in flight on it are interrupted (R382). -/
def resetLink (s : State) (link : Nat) : State :=
  let hit := (s.threads.filter (fun p => match remoteAccess p.2 with
    | some (_, dev) => linkServes s.fabric link dev
    | none => false)).map (fun p => p.2.lctx.toNat)
  let recent := ((s.fabric.resetAt.find link).getD []).filter (fun c => decide (s.cycle < c + 2 ^ 21))
  let s1 := { s with fabric := { s.fabric with replays := s.fabric.replays.drop link,
                                               resetAt := s.fabric.resetAt.put link (s.cycle :: recent) } }
  (hit.eraseDups.foldl interruptLaunch s1).logEvent .linkReset 0 (BitVec.ofNat 64 link) 0

/-- LINK_FLIT_REPLAY (R368): a replay shows as latency only; a link that fails 16 consecutive replays of one flit is reset. -/
def execLinkFlitReplay (flit : Replay) (s : State) : Outcome :=
  if 16 ≤ flit.link then .next s else
  let n := if flit.same then (s.fabric.replays.find flit.link).getD 0 + 1 else 1
  if n < 16 then .next { s with fabric := { s.fabric with replays := s.fabric.replays.put flit.link n } }
  else .next (resetLink s flit.link)

/-- LINK_RESET_RETRAIN (R368): a link that has lost lock. -/
def execLinkResetRetrain (link : Nat) (s : State) : Outcome := if link < 16 then .next (resetLink s link) else .next s

/-- An access of another package that its translation has admitted, with orders 5 and 6 of its checks: the cause that refuses it there, or
its place and translation. A line that a copy engine owns makes it wait; then come its data or tag that cannot be read, and a word of an L
page whose tag is not VALUE, which a staged operation does not meet (R317, R329, R372). -/
def admitRemote (s : State) (va : Word) (n : Nat) (attrs : Hit → Option Cause) (unreadable : Hit → Nat → Bool) (h : Hit) : Check (Nat × Hit) :=
  match attrs h with
  | some c => trapOf c va
  | none =>
    let pa := h.entry.pa va.toNat
    if lineHeld s (.dram pa) n then stall
    else if unreadable h pa then trapOf .uncorrectableData va
    else if pteL h.entry.pte && s.tag pa != 0 then trapOf .thunkInvalid va
    else .ok (pa, h)

/-- The translation of an access of another package (R372): under the table that Helben binds to that package, in the requester's mode. -/
def translateRemote (s : State) (dev : Nat) (sup : Bool) (kind : AccessKind) (va : Word) (n : Nat) : Check Hit :=
  match s.helben.remotes.find dev with
  | none => trapOf (pageFaultOf kind) va
  | some root =>
    if n = 0 ∨ va.toNat % n ≠ 0 ∨ 2 ^ 52 ≤ va.toNat then trapOf (misalignedOf kind) va
    else walkHit s { core := none, die := 4, mode := Mode.ofBit sup, asid := 0, ptbase := root, privbase := 0 } kind va.toNat va

/-- Orders 5 and 6 of R116 for an access of another package, which is no K page's owner. -/
def remoteAttrs (kind : AccessKind) (h : Hit) : Option Cause :=
  if !attrsOk h.entry.pte then some .attributeConflict
  else if kind = .store then kvStoreCause 4 h.entry.pte else none

/-- Orders 5 to 8 of R306 for an ATOM of another package. -/
def remoteAtomAttrs (ret : Bool) (lctx : Nat) (h : Hit) : Option Cause :=
  if ret && !pteR h.entry.pte then some .loadProtection
  else if !attrsOk h.entry.pte then some .attributeConflict
  else if pteD h.entry.pte && (ret || lctx == 0) then some .determinismViolation
  else kvStoreCause 4 h.entry.pte

/-- Answers the requesting package. -/
def answer (s : State) (v : Reply) : State := { s with fabric := { s.fabric with answer := some v } }

/-- The sequence number of a package's request has been used (R369). -/
def markSeen (s : State) (dev seqno : Nat) : State :=
  { s with fabric := { s.fabric with seen := s.fabric.seen.put dev (seqno :: (s.fabric.seen.find dev).getD []) } }

/-- Whether a size is one of an access. -/
def sizeOk (n : Nat) : Bool := [1, 2, 4, 8].contains n

/-- The home slice of an address accepts a request of another package at Helben's port (R302; log 82). -/
def acceptRemote (s : State) (kind : AccessKind) (p : Nat × Hit) : State := (touch s none kind p.2).acceptAt 39 p.1

/-- The meaning of a request of another package from its translation and checks: what `k` does and answers, or the cause of a refusal (R372). -/
def serveRemote (s : State) (c : Check (Nat × Hit)) (k : Nat × Hit → State × Reply) : Check (State × Reply) :=
  match c with
  | .error none => stall
  | .error (some t) => .ok (s, .refused t.cause)
  | .ok p => .ok (k p)

/-- The translation of a request of another package and then its checks. -/
def afterTranslation (c : Check Hit) (k : Hit → Check (Nat × Hit)) : Check (Nat × Hit) :=
  match c with
  | .error e => .error e
  | .ok h => k h

/-- The operations of a launch of another package that are staged here, in the order of R310. -/
def stagedFor (s : State) (dev lctx : Nat) : List Staged := sortStaged ((s.fabric.staged.filter (fun p => p.1 == (dev, lctx))).map (·.2))

/-- A launch of another package completes: its operations that are staged here are applied and forgotten (R280, R311). A copy engine that owns
one of their lines writes it first (R23). -/
def finishRemote (s : State) (dev lctx : Nat) : Check (State × Reply) :=
  let l := stagedFor s dev lctx
  if l.any (fun r => r.targets.any (fun p => lineHeld s (.dram p.1) p.2)) then stall
  else .ok (l.foldl applyStaged { s with fabric := { s.fabric with staged := s.fabric.staged.filter (fun p => p.1 != (dev, lctx)) } }, .done 0)

/-- What an access of another package does here (R372): the state and the answer. An ATOM is performed at its home slice with the issuer's
MULT and FRM (R305); one that does not return and meets a D page is staged until its launch completes, its package keeping the budget (R309,
R312; log 81). -/
def serveRequest (s : State) (dev : Nat) (sup : Bool) (msg : RemoteMsg) : Check (State × Reply) :=
  match msg.req with
  | .load va n =>
    serveRemote s (afterTranslation (translateRemote s dev sup .load va n)
        (admitRemote s va n (remoteAttrs .load) (fun _ pa => s.isBad pa n)))
      (fun p => (acceptRemote s .load p, .done (BitVec.ofNat 64 (s.mem.readLE p.1 n))))
  | .store va n data =>
    serveRemote s (afterTranslation (translateRemote s dev sup .store va n)
        (admitRemote s va n (remoteAttrs .store) (fun h pa => pteL h.entry.pte && tagBad s pa)))
      (fun p => ((acceptRemote s .store p).storePa none p.1 n data.toNat, .done 0))
  | .atom va op n ret b c mult frm =>
    serveRemote s (afterTranslation (translateRemote s dev sup .store va n)
        (admitRemote s va n (remoteAtomAttrs ret msg.lctx) (fun h pa => !pteD h.entry.pte && s.isBad pa n)))
      (fun p =>
        let s1 := acceptRemote s .store p
        let r : AtomReq :=
          { d := 0, op := op, size := n, ptr := va, loc := .dram p.1, lpage := pteL p.2.entry.pte, staged := pteD p.2.entry.pte, b := b,
            c := c, mult := mult, frm := frm, wid := msg.wid, seqno := msg.key }
        if r.staged then
          ({ s1 with fabric := { s1.fabric with staged := s1.fabric.staged ++ [((dev, msg.lctx), stagedOfAtom r)] } }, .done 0)
        else
          let q := performAtom s1 p.1 r
          (q.1, .done (if ret then q.2 else 0)))
  | .finish => finishRemote s dev msg.lctx

/-- Whether a request of another package is one of an access. -/
def remoteReqOk : RemoteReq → Bool
  | .load _ n => sizeOk n
  | .store _ n _ => sizeOk n
  | .atom _ op n _ _ _ _ _ => decide (op < 15) && (n == 4 || (n == 8 && op != 1 && op != 9 && op != 10 && op != 14))
  | .finish => true

/-- REMOTE_REQUEST (R372, R369): an access of another package is translated here and performed, or refused with its cause; a duplicate of a
request that has been served is discarded. -/
def execRemoteRequest (dev : Nat) (sup : Bool) (msg : RemoteMsg) (s : State) : Outcome :=
  if !remoteReqOk msg.req || ((s.fabric.seen.find dev).getD []).contains msg.seqno then .next s else
  match serveRequest s dev sup msg with
  | .error _ => .next s
  | .ok (s1, a) => .next (answer (markSeen s1 dev msg.seqno) a)

end Sys2Proof.Machine
end

