-- ==== Sys2Proof/Machine/Helben.lean ====
section
/-!
DEFINITION. Helben: start-up (R374), firmware (R375), power (R377), sensors (R378), scrubbing (R379), retirement of parts (R380) and
the re-run of interrupted launches (R381, R382).
-/
namespace Sys2Proof.Machine

/-! ### Start-up (R374, R375) -/

/-- The slots that a boot tries, in order, and Helben after the choice (R375): a pending slot once, then the previous one. -/
def bootOrder (h : Helben) : List Nat × Helben :=
  match h.pendingSlot with
  | some p =>
    if h.tried then ([h.active, 1 - h.active], { h with pendingSlot := none, tried := false, missed := false })
    else ([p, 1 - p], { h with tried := true, missed := false })
  | none => ([h.active, 1 - h.active], { h with tried := false, missed := false })

/-- Whether the image of a slot verifies: its signature, and its version against the anti-rollback counter (R374, R375). -/
def imageGood (h : Helben) (ok : List Bool) (slot : Nat) : Bool :=
  ok.getD slot false && decide (h.rollback ≤ h.versions.getD slot 0)

/-- Step 1 of R374: the image that boots, or recovery. -/
def bootStep (h : Helben) (ok : List Bool) : Helben :=
  let q := bootOrder h
  match q.1.find? (imageGood h ok) with
  | some k => { q.2 with running := k, recovery := false, pendingSlot := if q.2.tried ∧ q.2.pendingSlot ≠ some k then none else q.2.pendingSlot,
                         tried := q.2.tried && q.2.pendingSlot == some k }
  | none => { q.2 with recovery := true }

/-- Marks a part retired (R380). -/
def markRetired (s : State) (p : Part) : State :=
  match p with
  | .core c => s.putCore c { s.core c with retired := true }
  | .cluster c => s.putCluster c { s.cluster c with retired := true, partId := 0 }
  | .slice d i => s.putDie d { s.die d with slices := if (s.die d).slices.contains i then (s.die d).slices else i :: (s.die d).slices }
  | .lane d i => s.putDie d { s.die d with lanes := if (s.die d).lanes.contains i then (s.die d).lanes else i :: (s.die d).lanes }
  | .channel d i => s.putDie d { s.die d with channels := if (s.die d).channels.contains i then (s.die d).channels else i :: (s.die d).channels }

/-- The die, cluster and core of a part in a log record (R378). -/
def partUnit (p : Part) : BitVec 16 :=
  match p with
  | .core c => unitOf (handleOf c 0)
  | .cluster c => unitOf (handleOf (c * 32) 0)
  | .slice d _ => BitVec.ofNat 16 d
  | .lane d _ => BitVec.ofNat 16 d
  | .channel d _ => BitVec.ofNat 16 d

/-- Whether a part is one of the package. -/
def partOk (p : Part) : Bool :=
  match p with
  | .core c => decide (c < 4608)
  | .cluster c => decide (c < 144)
  | .slice d i => decide (d < 4) && decide (i < (if d < 2 then 64 else 128))
  | .lane d _ => decide (d < 4)
  | .channel d _ => decide (d < 4)

/-- The package at a reset: everything as at device reset, but for the parts that stay retired (R380), the flash (R375) and the log, which
is mirrored there (R378), and what outside parties do next. -/
def afterReset (s : State) : State :=
  { State.reset with
      agenda := s.agenda, free := s.free,
      cores := (s.cores.filter (fun p => p.2.retired)).map (fun p => (p.1, { Core.reset with retired := true })),
      clusters := (s.clusters.filter (fun p => p.2.retired)).map (fun p => (p.1, { Cluster.reset with retired := true })),
      dies := s.dies.map (fun p => (p.1, { Die.reset with slices := p.2.slices, lanes := p.2.lanes, channels := p.2.channels })),
      helben := { Helben.reset with log := s.helben.log, active := s.helben.active, versions := s.helben.versions,
                                    running := s.helben.running, pendingSlot := s.helben.pendingSlot, tried := s.helben.tried,
                                    missed := s.helben.missed,
                                    rollback := s.helben.rollback } }

/-- Helben's firmware chooses its policy within the limits that the dies enforce (R376): a cap of at most 1,800 W, and up to 4 watch addresses
for each partition. -/
def setPolicy (h : Helben) (p : Policy) : Helben :=
  { h with cap := min p.cap 1800, haltLim := p.haltLimit, watch := p.watch.foldl (fun m q => m.put q.1 (q.2.take 4)) [] }

/-- Step 3 of R374: partitions, link mode (of a switched domain's device numbers those below 192, R6) and the host window; with them Helben's
policy (R376). -/
def configure (s : State) (c : Startup) : State :=
  let s1 := c.partitions.foldl (fun st p =>
    if p.1 < 144 ∧ (st.cluster p.1).retired = false then st.putCluster p.1 { st.cluster p.1 with partId := p.2 % 256 } else st) s
  { s1 with
      fabric := { s1.fabric with torus := c.torus, device := c.device, live := c.live.filter (fun d => decide (d < 192)), dims := c.dims,
                                 rings := c.rings },
      helben := setPolicy { s1.helben with hostAsid := c.hostAsid, hostRoot := c.hostRoot,
                                           remotes := c.remotes.foldl (fun m p => m.put p.1 p.2) [], step := 3 } c.policy }

/-- The host link trains (R363): Helben logs the width and the rate. -/
def trainLink (s : State) (c : Startup) : State :=
  ({ s with host := { s.host with width := c.width, rate := c.rate } }).logEvent .linkTrained 0 (BitVec.ofNat 64 c.width) (BitVec.ofNat 64 c.rate)

/-- The partitions of the package. -/
def partitionsOf (s : State) : List Nat :=
  (((List.range 144).filter (fun c => !(s.cluster c).retired)).map (fun c => (s.cluster c).partId)).eraseDups

/-- The core that a partition's supervisor starts on: core 0 of cluster 0 of the partition's lowest die (R374). -/
def supervisorCore (s : State) (pid : Nat) : Nat :=
  match (partitionDies s pid).head? with
  | some d => d * 1152
  | none => 0

/-- A supervisor thread of launch context 0 is bound in the lowest EMPTY slot of a core (R374 step 5; log 7). -/
def startSupervisor (s : State) (c : Startup) (core : Nat) : State :=
  match (List.range 16).find? (fun k => slotEmpty s (handleOf core k)) with
  | none => s
  | some k =>
    let s1 := modServed (takeContext s core 0) core 0 (fun x => { x with csrs := { CtxCsrs.reset with ptbase := c.root &&& 0x0000FFFFFFFF0000 } })
    let th := Thread.reset (.slot (handleOf core k)) s1.seq s1.cycle
    let s2 := s1.putThread s1.nextTid { th with pc := c.entry, mode := .supervisor, lastIssue := some s1.cycle }
    { s2 with nextTid := s2.nextTid + 1, seq := s2.seq + 1 }

/-- Steps 4 and 5 of R374. -/
def startFromImage (s : State) (c : Startup) : State :=
  if !c.imageOk then (s.modHelben (fun h => { h with step := 4 })).logEvent .supervisorFailed 0 0 0
  else
    let s1 := { s with mem := s.mem.writeAll c.image }
    let s2 := (partitionsOf s1).foldl (fun st p => startSupervisor st c (supervisorCore st p)) s1
    s2.modHelben (fun h => { h with step := 5, booted := true })

/-- POWER_ON_STARTUP (R374): power-on or a package reset, then the five steps. A boot that returns to the previous slot logs the failure, and
one after an update has taken the place of a tried image that was not confirmed (R375). -/
def execPowerOnStartup (c : Startup) (s : State) : Outcome :=
  let s1 := (afterReset s).modHelben (fun h => bootStep h c.slotOk)
  if s1.helben.recovery then .next (s1.logEvent .bootFailed 0 0 0)
  else
    let s2 := if s.helben.missed = true ∨ (s1.helben.running = s.helben.active ∧ (s.helben.pendingSlot).isSome = true) then s1.logEvent .bootFailed 0 1 0 else s1
    let s3 := (c.failed.filter partOk).foldl (fun st p => (markRetired st p).logAt (.retired p) (partUnit p) 0 0 0) s2
    .next (startFromImage (trainLink (configure s3 c) c) c)

/-- STARTUP_RETRY_COMMAND (R374): step 4 again after it failed. -/
def execStartupRetryCommand (c : Startup) (s : State) : Outcome :=
  if s.helben.step = 4 ∧ s.helben.booted = false then .next (startFromImage s c) else .next s

/-- FIRMWARE_UPDATE (R375): an image is written to the inactive slot, and pending if it verifies. -/
def execFirmwareUpdate (version : Nat) (verified : Bool) (s : State) : Outcome :=
  let h := s.helben
  let slot := 1 - h.active
  let ok := verified && decide (h.rollback ≤ version)
  let pend := if ok then some slot else if h.pendingSlot = some slot then none else h.pendingSlot
  let h1 : Helben := { h with versions := h.versions.set slot version, pendingSlot := pend, tried := if pend = h.pendingSlot && !ok then h.tried else false,
                                missed := h.missed || (h.tried && h.pendingSlot == some slot) }
  .next (({ s with helben := h1 }).logEvent .firmware 0 (BitVec.ofNat 64 version) (if ok then 1 else 0))

/-- FIRMWARE_CONFIRM (R375): the pending image that has booted becomes active, and the counter its version. -/
def execFirmwareConfirm (s : State) : Outcome :=
  match s.helben.pendingSlot with
  | some p =>
    if s.helben.tried && s.helben.booted && s.helben.running == p then
      .next (s.modHelben (fun h => { h with active := p, pendingSlot := none, tried := false,
                                            rollback := max h.rollback (h.versions.getD p 0) }))
    else .next s
  | none => .next s

/-! ### Power, sensors, errors -/

/-- The package's power as its dies last sensed it. -/
def packagePower (s : State) : Nat := ((List.range 4).map (fun d => (s.die d).watts)).foldl (· + ·) 0

/-- POWER_SENSE (R377): a die senses its power; above the cap it throttles at a level from 1 to 15. -/
def execPowerSense (die watts level : Nat) (s : State) : Outcome :=
  if 4 ≤ die then .next s else
  let s1 := s.putDie die { s.die die with watts := watts }
  let t := if s1.helben.cap < packagePower s1 then max 1 (min 15 level) else 0
  let s2 := s1.putDie die { s1.die die with throttle := t }
  .next (if t = (s.die die).throttle then s2 else s2.logAt .throttle (BitVec.ofNat 16 die) 0 (BitVec.ofNat 64 t) 0)

/-- A die that holds copies of journal records has failed (R381): each record has its copies on live dies before the next replayable launch
is accepted. -/
def mirrorJournal (s : State) : State :=
  let dies := journalDies s
  if s.helben.journal.all (fun j => j.copies == dies) then s
  else (s.modHelben (fun h => { h with journal := h.journal.map (fun j => { j with copies := dies }) })).logEvent .mirror 0 0 0

/-- SENSOR_SAMPLE (R378): Helben keeps the sample, and stop-halts a partition that has reached a thermal limit with the cap at its floor.
What else comes with the sample is the model's own: the firmware's policy (R376) and the dies that have failed (R381; log 12). -/
def execSensorSample (r : Reading) (s : State) : Outcome :=
  let s1 := s.modHelben (fun h => { h with hot := r.hot, temps := r.temps, rails := r.rails, coolant := r.coolant, dead := r.dead })
  let s2 := match r.policy with
    | some p => s1.modHelben (fun h => setPolicy h p)
    | none => s1
  .next (r.hot.foldl (fun st p => haltPartition (st.logEvent .sensor 0 (BitVec.ofNat 64 p) 0) p true 1) (mirrorJournal s2))

/-- A line of DRAM holds an uncorrectable word (R119, R379): it is marked and logged; one in Helben's own storage spoils the images kept
there. -/
def markLine (s : State) (l : Nat) : State :=
  let s1 := { s with bad := s.bad.put l (BitVec.allOnes 32) }
  let s2 := if paReserved (l * 32) then s1.modHelben (fun h => { h with shadows := h.shadows.map (fun p => (p.1, { p.2 with good := false })) })
    else s1
  s2.logAt .uncorrectable (BitVec.ofNat 16 (dieOfPa (l * 32))) 0 (BitVec.ofNat 64 (l * 32)) 0

/-- A word of SRAM, by its place in 8 bytes, holds an uncorrectable error, which is logged (R379; log 57). -/
def markSramWord (s : State) (w : Nat) : State :=
  ({ s with badSram := s.badSram.put w (BitVec.allOnes 8) }).logAt .uncorrectable (unitOf (handleOf (w / 2 ^ 19 * 32) 0)) 0
    (BitVec.ofNat 64 (w * 8)) 1

/-- DRAM_SCRUB (R379): lines with an uncorrectable word are marked and logged, and each corrected error is logged. The words of SRAM that
hold an uncorrectable error, or held a corrected one, come with it in this model (log 57). -/
def execDramScrub (found : Scrub) (s : State) : Outcome :=
  let s1 := (found.lines.filter (fun l => decide (l * 32 < dramEnd))).foldl markLine s
  let s2 := (found.correctedSram.filter (fun w => decide (w < 144 * 2 ^ 19))).foldl (fun st w =>
    st.logAt .corrected (unitOf (handleOf (w / 2 ^ 19 * 32) 0)) 0 (BitVec.ofNat 64 (w * 8)) 1) ((found.corrected.filter (fun l => decide (l * 32 < dramEnd))).foldl (fun st l =>
    st.logAt .corrected (BitVec.ofNat 16 (dieOfPa (l * 32))) 0 (BitVec.ofNat 64 (l * 32)) 0) s1)
  .next ((found.sram.filter (fun w => decide (w < 144 * 2 ^ 19))).foldl markSramWord s2)

/-- The thread whose ATOM or SMERGE found the persistent residue error of a slice: the first that has one outstanding there (R306). -/
def sliceVictim (s : State) (die slice : Nat) : Option Nat :=
  (s.threads.find? (fun p => match p.2.wait with
    | some (.atom r) => (match r.loc with
      | .dram pa => homeSlice s pa == die * 128 + slice
      | _ => false)
    | some (.smerge r) => r.blocks.any (fun b => homeSlice s b == die * 128 + slice)
    | _ => false)).map (·.1)

/-- The places in DRAM that a thread's outstanding access reaches. -/
def reachesDram (th : Thread) : List Nat :=
  let locs : List Loc := match th.head, th.wait with
    | some { op := .load _ _ _ _ l _, .. }, _ => [l]
    | some { op := .store _ _ _ l _, .. }, _ => [l]
    | some { op := .vload _ lanes, .. }, _ => lanes.map Lane.loc
    | some { op := .vstore lanes _, .. }, _ => lanes.map Lane.loc
    | some { op := .mst _ _ lanes _, .. }, _ => lanes.map Lane.loc
    | some { op := .vstq _ pa hdr _ _, .. }, _ => [.dram pa, .dram hdr]
    | some { op := .mma _ _ _ _, reads := l, .. }, _ => l.map Loc.dram
    | some { op := .mld _ _ _, reads := l, .. }, _ => l.map Loc.dram
    | _, some (.atom r) => [r.loc]
    | _, some (.smerge r) => r.blocks.map Loc.dram
    | _, _ => []
  locs.filterMap (fun l => match l with
    | .dram pa => some pa
    | _ => none)

/-- The places in DRAM that the transfer or iteration of an accepted copy request reaches next. -/
def jobReaches (s : State) (j : CopyJob) : List Nat :=
  (j.owned.filter (·.dram)).map (·.start) ++ j.plan.filterMap (fun p => match p.1 with
    | some ptr => match copyAcc s j .load ptr with
      | .ok a => (match a.loc with
        | .dram pa => some pa
        | _ => none)
      | .error _ => none
    | none => none)

/-- A lane of a die's bridge is reset and retrained without one that failed (R380): the launches with an access or a copy in flight across
that die's bridge are interrupted (R382; log 31). -/
def resetLane (s : State) (die : Nat) : State :=
  let crosses := fun (home pa : Nat) => dieOfPa pa != home && (dieOfPa pa == die || home == die)
  let hit := (s.threads.filter (fun p => (reachesDram p.2).any (crosses (dieOfCore p.2.core)))).map (fun p => p.2.lctx.toNat)
  let jobs := (s.clusters.map (fun c => c.2.jobs.filter (fun j => (jobReaches s j).any (crosses (c.1 / 36))))).flatten
  (hit ++ jobs.map (fun j => j.req.lctx)).eraseDups.foldl interruptLaunch s

/-- A cluster fails (R380): its threads receive MACHINE_CHECK at their boundaries, its deque records are lost, and the launches of both are
interrupted (R382). Its command FIFOs keep their requests, which no engine accepts (R149). -/
def failCluster (s : State) (c : Nat) : State :=
  let lost := (s.threads.filter (fun q => clusterOfCore q.2.core == c && (match q.2.place with
    | .out _ _ => false
    | .swapped _ _ _ _ => false
    | _ => true)))
  let records := ((s.cores.filter (fun p => clusterOfCore p.1 == c)).map (fun p => p.2.deque.map (·.lctx))).flatten
  let lctxs := (lost.map (fun q => q.2.lctx.toNat) ++ records).eraseDups
  let s1 := lctxs.foldl interruptLaunch (lost.foldl (fun st q => endLost st q.1) s)
  { s1 with cores := s1.cores.map (fun p => if clusterOfCore p.1 = c then (p.1, { p.2 with deque := [] }) else p) }

/-- The effect of a part's retirement (R380). -/
def retirePart (s : State) (p : Part) : State :=
  match p with
  | .core c => retireCore s c
  | .cluster c => markRetired (failCluster s c) p
  | .slice d i =>
    match sliceVictim s d i with
    | some t => markRetired (s.machineCheck t 0) p
    | none => markRetired s p
  | .lane d _ => markRetired (resetLane s d) p
  | .channel _ _ => markRetired s p

/-- PART_RETIREMENT (R380, R306). -/
def execPartRetirement (part : Part) (s : State) : Outcome :=
  if partOk part then .next ((retirePart s part).logAt (.retired part) (partUnit part) 0 0 0) else .next s

/-- RETIREMENT_LIFTED (R380). -/
def execRetirementLifted (part : Part) (s : State) : Outcome :=
  if !partOk part then .next s else
  .next ((match part with
    | .core c => s.putCore c { s.core c with retired := false }
    | .cluster c => s.putCluster c { s.cluster c with retired := false }
    | .slice d i => s.putDie d { s.die d with slices := (s.die d).slices.filter (· != i) }
    | .lane d i => s.putDie d { s.die d with lanes := (s.die d).lanes.filter (· != i) }
    | .channel d i => s.putDie d { s.die d with channels := (s.die d).channels.filter (· != i) }).logAt (.lifted part) (partUnit part) 0 0 0)

/-! ### The work journal (R381, R382) -/

/-- The core that a re-run starts on: that of its LAUNCH, else the first core of a surviving part that its diemask includes. -/
def rerunCore (s : State) (l : Launch) : Option Nat :=
  if engineRuns s l.core then some l.core
  else (List.range 4608).find? (fun c => engineRuns s c && l.hdr.diemask.getLsbD (dieOfCore c)
    && (s.cluster (clusterOfCore c)).partId == (s.cluster (clusterOfCore l.core)).partId)

/-- Whether a journal record is the one to run again: interrupted, and no record before it is interrupted or being run again (R382). -/
def replayDue (l : List Journal) (lctx : Nat) : Bool :=
  match l with
  | [] => false
  | j :: rest => if j.phase = 0 then replayDue rest lctx else j.phase == 1 && j.lctx == lctx

/-- LAUNCH_REPLAY (R382): an interrupted replayable launch ends and runs again from its record, under the same number; while no surviving
core has room for its range it stays interrupted. -/
def execLaunchReplay (lctx : Nat) (s : State) : Outcome :=
  match s.helben.journal.find? (fun j => j.lctx == lctx) with
  | none => .next s
  | some j =>
    if !replayDue s.helben.journal lctx then .next s else
    let s1 := endLaunch s j
    let e : DequeEntry :=
      { kind := .range 0 j.launch.total, entry := j.launch.hdr.entry, arg := j.launch.hdr.arg, x11 := j.launch.x11, wid := 0,
        widself := 0, prio := 0, mult := 1, lctx := lctx }
    match (rerunCore s1 j.launch).map (fun core => pushDeque s1 core e) with
    | some (.ok s2) =>
      .next ((s2.modHelben (fun h => { h with journal := h.journal.map (fun x => if x.lctx = lctx then { x with phase := 2 } else x) })).logEvent
        .replay 0 (BitVec.ofNat 64 lctx) 0)
    | _ => .next s1

end Sys2Proof.Machine
end

