-- ==== Sys2Proof/Machine/Kv.lean ====
section
/-!
DEFINITION. Key-value pages (20_kv): page operands (R342, R348), pools and purses (R345 to R347), draws and returns (R350,
R357), the eight KV instructions (R350 to R355), and Helben's part of a brokered pool (R357).
-/
namespace Sys2Proof.Machine

/-- A GLOBAL pointer, or the trap of any other (R348): its virtual address. -/
def kvGlobal (s : State) (th : Thread) (ptr : Word) : Check Nat :=
  match spaceOf (cxOf s th) (clusterOfCore th.core) .load false ptr with
  | .error t => .error (some t)
  | .ok (.global va) => .ok va
  | .ok _ => trapOf .spaceInvalid ptr

/-- An access of the issuer to a KV object of n bytes (R348): GLOBAL, aligned, then R116. -/
def kvAccess (s : State) (th : Thread) (kind : AccessKind) (ptr : Word) (n align : Nat) : Check Acc := do
  let _ ← kvGlobal s th ptr
  require (ptr.toNat % align == 0) .loadMisaligned ptr
  let a ← checkAccess s (cxOf s th) th.place.handle kind .scalar false ptr n 1
  if lineHeld s a.loc n then stall
  else if kind == .load && locBad s a.loc n then trapOf .uncorrectableData ptr
  else .ok a

/-- The physical address of a DRAM location. -/
def Loc.pa : Loc → Nat
  | .dram pa => pa
  | _ => 0

/-- A pool as an instruction read it (R345). -/
structure KvPool where
  addr     : Word
  acc      : Acc
  free     : Nat
  escrowed : Nat
  stack    : Word
  capacity : Nat
  brokered : Bool
  granted  : Nat
  deriving DecidableEq, Repr

/-- The fields of the pool at a physical address, and whether it is valid (R345). -/
def poolAt (s : State) (addr : Word) (acc : Acc) : KvPool × Bool :=
  let pa := acc.loc.pa
  let w := fun (i n : Nat) => s.mem.readLE (pa + i) n
  let p : KvPool :=
    { addr := addr, acc := acc, free := w 0 4, escrowed := w 4 4, stack := BitVec.ofNat 64 (w 8 8), capacity := w 16 4,
      brokered := w 20 4 % 2 == 1, granted := w 24 4 }
  (p, decide (w 20 4 ≤ 1) && w 28 4 == 0 && w 32 8 == 0 && w 40 8 == 0 && w 48 8 == 0 && w 56 8 == 0
    && (p.brokered || p.granted == 0) && decide (p.free + p.granted ≤ p.capacity)
    && decide (p.escrowed ≤ p.free + p.granted))

/-- Reads a pool (R345, R348). -/
def readPool (s : State) (th : Thread) (ptr : Word) : Check KvPool := do
  let a ← kvAccess s th .load ptr 64 64
  let r := poolAt s ptr a
  require r.2 .kvPoolInvalid ptr
  .ok r.1

/-- A purse as an instruction read it (R346). -/
structure KvPurse where
  addr      : Word
  acc       : Acc
  remaining : Nat
  drawn     : Nat
  deriving DecidableEq, Repr

/-- Reads a purse and its pool (R345, R346). -/
def readPurse (s : State) (th : Thread) (ptr : Word) : Check (KvPurse × KvPool) := do
  let a ← kvAccess s th .load ptr 16 16
  let p ← readPool s th (BitVec.ofNat 64 (s.mem.readLE a.loc.pa 8))
  let u : KvPurse :=
    { addr := ptr, acc := a, remaining := s.mem.readLE (a.loc.pa + 8) 4, drawn := s.mem.readLE (a.loc.pa + 12) 4 }
  require (decide (u.remaining ≤ p.escrowed)) .kvPoolInvalid ptr
  .ok (u, p)

/-- A K page by its operand (R342, R348): its base pointer, its leaf and its physical address. -/
structure KvPage where
  ptr  : Word
  base : Word
  leaf : Nat
  pte  : Word
  pa   : Nat
  deriving DecidableEq, Repr

/-- The page that an operand names: a GLOBAL pointer, a new walk, K set (R348); the trap of a page without K is at `bad`. -/
def kvPage (s : State) (th : Thread) (kind : AccessKind) (ptr bad : Word) : Check KvPage := do
  let va ← kvGlobal s th ptr
  let cx := cxOf s th
  match walk s none cx.asid cx.ptbase va with
  | .fault => trapOf (pageFaultOf kind) ptr
  | .corrupt => trapOf .pageTableCorrupt ptr
  | .held => stall
  | .leaf e =>
    require (pteK e.pte) .kvPoolInvalid bad
    .ok { ptr := ptr, base := ptr &&& ~~~ 0xFFFF, leaf := e.pteAddr, pte := e.pte, pa := pteBase e.pte }

/-- The permission that an instruction asks of its page (R351 to R355). -/
def kvPermit (th : Thread) (kind : AccessKind) (g : KvPage) : Check Unit :=
  require (admits th.mode kind g.pte) (protectionOf kind) g.ptr

def KvPage.count (g : KvPage) : Nat := pteCount g.pte
def KvPage.owner (g : KvPage) : Nat := pteOwner g.pte

/-- Whether a copy engine owns the line of a page's leaf, which a step that changes it waits for (R23, R349). -/
def leafHeld (s : State) (g : KvPage) : Bool := ownedAt s true g.leaf 8

/-- Writes a leaf's reference count and owner (R342). -/
def setLeaf (s : State) (g : KvPage) (count owner : Nat) : State :=
  let e : Word := BitVec.ofNat 64 (s.mem.readLE g.leaf 8)
  let e' : Word := (e &&& 0xFC00FFFFFFFFFFFF) ||| BitVec.ofNat 64 (count % 256 * 2 ^ 48 + owner % 4 * 2 ^ 56)
  { s with mem := s.mem.writeLE g.leaf 8 e'.toNat, dir := recallDir s.dir g.leaf 8 }

/-- The address of the first byte that is marked uncorrectable of n bytes from an offset of a page (R360). -/
def badByte (s : State) (g : KvPage) (off n : Nat) : Option Word :=
  if s.isBad (g.pa + off) n then
    ((List.range n).find? (fun i => s.isBad (g.pa + off + i) 1)).map (fun i => g.base + BitVec.ofNat 64 (off + i))
  else none

/-- A page's bytes are whole, or the read traps UNCORRECTABLE_DATA with the failing address (R360). -/
def pageWhole (s : State) (g : KvPage) (off n : Nat) : Check Unit :=
  match badByte s g off n with
  | some p => trapOf .uncorrectableData p
  | none => .ok ()

/-- Removes a page's translations from every TLB of the package (R350, R351). -/
def forgetPage (s : State) (pa : Nat) : State := invalidateTlbs s (fun e => pteK e.pte && pteBase e.pte == pa)

/-- Removes a page's translations from the TLBs of one die (R355 step 6). -/
def forgetPageOn (s : State) (die pa : Nat) : State :=
  let sel := fun (e : TlbEntry) => pteK e.pte && pteBase e.pte == pa
  { s with cores := s.cores.map (fun p =>
             if dieOfCore p.1 = die then (p.1, { p.2 with tlb := p.2.tlb.filter (fun e => !sel e) }) else p),
           clusters := s.clusters.map (fun p =>
             if p.1 / 36 = die then
               (p.1, { p.2 with tlb := (p.2.tlb.map (fun w => (w.1, w.2.filter (fun e => !sel e)))).filter (fun w => !w.2.isEmpty) })
             else p) }

/-- The write of a pool's counters, with its W permission checked before. -/
def writePool (s : State) (core : Nat) (acc : Acc) (p : KvPool) : State :=
  let s1 := touchAcc s (some core) .store acc
  (s1.storePa none acc.loc.pa 8 (p.free + p.escrowed * 2 ^ 32)).storePa none (acc.loc.pa + 24) 4 p.granted

/-- The write of a purse's counters. -/
def writePurse (s : State) (core : Nat) (acc : Acc) (u : KvPurse) : State :=
  (touchAcc s (some core) .store acc).storePa none (acc.loc.pa + 8) 8 (u.remaining + u.drawn * 2 ^ 32)

/-- The address of a stack entry. -/
def KvPool.entry (p : KvPool) (i : Nat) : Word := p.stack + BitVec.ofNat 64 (8 * i)

/-- The checks of a stack access (R348): the stack field, then the entry's access. -/
def stackAccess (s : State) (th : Thread) (kind : AccessKind) (p : KvPool) (i : Nat) : Check Acc := do
  let _ ← kvGlobal s th p.stack
  require (p.stack.toNat % 8 == 0) .loadMisaligned p.stack
  kvAccess s th kind (p.entry i) 8 1

/-- What a draw gives (R350, R357): the page, the pool after it and the accesses it read, or none when a brokered pool's cache
holds no page. -/
def kvDraw (s : State) (th : Thread) (p : KvPool) : Check (Option (KvPage × KvPool × List Acc)) :=
  let checked := fun (q : Word) (p' : KvPool) (reads : List Acc) => (do
    let g ← kvPage s th .load q p.addr
    require (g.count == 0) .kvPoolInvalid p.addr
    .ok (some (g, p', reads)) : Check (Option (KvPage × KvPool × List Acc)))
  if p.brokered then
    let c := s.core th.core
    match c.broker with
    | q :: _ => if (c.brokerOf.map (·.1)) = some p.acc.loc.pa then checked q { p with granted := p.granted - 1 } []
        else .ok none
    | [] => .ok none
  else do
    require (p.free != 0) .kvPoolInvalid p.addr
    let a ← stackAccess s th .load p (p.free - 1)
    checked (BitVec.ofNat 64 (s.mem.readLE a.loc.pa 8)) { p with free := p.free - 1 } [a]

/-- The most recently granted page leaves a broker cache (R357). -/
def takeCached (s : State) (core : Nat) (cached : Bool) : State :=
  if cached then
    let c := s.core core
    s.putCore core { c with broker := c.broker.drop 1 }
  else s

/-- The store accesses of a pool and a purse before they are written. -/
def kvWrites (s : State) (th : Thread) (u : KvPurse) (p : KvPool) : Check (Acc × Acc) := do
  let ap ← kvAccess s th .store p.addr 64 64
  let au ← kvAccess s th .store u.addr 16 16
  .ok (ap, au)

/-- The push of a page on a pool's stack (R350, R352): the entry's access, or the trap of a full stack. -/
def kvPush (s : State) (th : Thread) (p : KvPool) : Check Acc := do
  require (p.free + p.granted != p.capacity) .kvPoolInvalid p.addr
  stackAccess s th .store p p.free

/-- The pool field of a page's header (R343). -/
def headerPool (s : State) (g : KvPage) : Check Word :=
  if lineHeld s (.dram g.pa) 16 then stall
  else do
    pageWhole s g 8 8
    .ok (BitVec.ofNat 64 (s.mem.readLE (g.pa + 8) 8))

/-- The page-table and TLB effects of the objects that an instruction read (R154). -/
def kvTouch (s : State) (th : Thread) (l : List Acc) : State :=
  l.foldl (fun st a => touchAcc st (some th.core) .load a) s

/-- KVRSV (R350). -/
def execKvrsv (d a : BitVec 5) (_scope : BitVec 3) (s : State) : Outcome :=
  runCheck s (fun th => do
    let (u, p) ← readPurse s th (th.getX a)
    let n := (th.getX d).toNat
    let s0 := kvTouch s th [u.acc, p.acc]
    if n = 0 then .ok (s0.retireX d 0)
    else if p.free + p.granted - p.escrowed < n then .ok (s0.retireX d 1)
    else
      let (ap, au) ← kvWrites s th u p
      let s1 := writePool s0 th.core ap { p with escrowed := p.escrowed + n }
      .ok ((writePurse s1 th.core au { u with remaining := u.remaining + n }).retireX d 0))

/-- What a KVTAKE does (R350): it completes once every access of another thread to the page is performed (R129); a
draw that needs Helben waits for its answer (R357). -/
def kvTake (s : State) (th : Thread) (d a : Reg) : Check State := do
  let (u, p) ← readPurse s th (th.getX a)
  require (u.remaining != 0) .kvEscrowEmpty u.addr
  match ← kvDraw s th p with
  | none => .ok (s.waitCur (.broker p.acc.loc.pa false d a))
  | some (g, p', reads) =>
    let (ap, au) ← kvWrites s th u p
    if pageOutstanding s g.pa || leafHeld s g || lineHeld s (.dram g.pa) 24 then stall else
    let s1 := writePool (takeCached (kvTouch s th ([u.acc, p.acc] ++ reads)) th.core p.brokered) th.core ap { p' with escrowed := p'.escrowed - 1 }
    let s2 := writePurse s1 th.core au { u with remaining := u.remaining - 1, drawn := u.drawn + 1 }
    let s3 := setLeaf s2 g 1 (dieOfCore th.core)
    let s4 := ((s3.storePa none g.pa 8 0x3F800000).storePa none (g.pa + 8) 8 p.addr.toNat).storePa none (g.pa + 16) 8 0
    .ok ((forgetPage s4 g.pa).retireX d g.base)

/-- KVTAKE (R350). -/
def execKvtake (d a : BitVec 5) (_scope : BitVec 3) (s : State) : Outcome :=
  runCheck s (fun th => kvTake s th d a)

/-- KVGIVE (R350): a refund, or the return of a page. -/
def execKvgive (d a : BitVec 5) (_scope : BitVec 3) (s : State) : Outcome :=
  runCheck s (fun th => do
    let (u, p) ← readPurse s th (th.getX a)
    let q := th.getX d
    if q = 0 then
      let (ap, au) ← kvWrites s th u p
      let s1 := writePool (kvTouch s th [u.acc, p.acc]) th.core ap { p with escrowed := p.escrowed - u.remaining }
      .ok ((writePurse s1 th.core au { u with remaining := 0 }).retireX d (BitVec.ofNat 64 u.remaining))
    else
      let g ← kvPage s th .load q q
      require (g.owner == dieOfCore th.core) .kvNotOwner q
      let hp ← headerPool s g
      require (g.count == 1 && hp == p.addr && u.drawn != 0) .kvPoolInvalid q
      let e ← kvPush s th p
      let (ap, au) ← kvWrites s th u p
      if leafHeld s g then stall else
      let s1 := (touchAcc (kvTouch s th [u.acc, p.acc]) (some th.core) .store e).storePa none e.loc.pa 8 g.base.toNat
      let s2 := writePool s1 th.core ap { p with free := p.free + 1 }
      let s3 := writePurse s2 th.core au { u with drawn := u.drawn - 1 }
      .ok ((setLeaf s3 g 0 g.owner).retireX d 0))

/-- KVSHARE (R351). -/
def execKvshare (d a : BitVec 5) (_scope : BitVec 3) (s : State) : Outcome :=
  runCheck s (fun th => do
    let g ← kvPage s th .load (th.getX a) (th.getX a)
    kvPermit th .load g
    require (g.owner == dieOfCore th.core) .kvNotOwner g.ptr
    require (g.count != 0) .kvPoolInvalid g.ptr
    if g.count = 255 then .ok (s.retireX d 0)
    else if pageOutstanding s g.pa || leafHeld s g then stall
    else .ok ((forgetPage (setLeaf s g (g.count + 1) g.owner) g.pa).retireX d (BitVec.ofNat 64 (g.count + 1))))

/-- KVREL (R352): the last reference returns the page to its pool. -/
def execKvrel (d a : BitVec 5) (_scope : BitVec 3) (s : State) : Outcome :=
  runCheck s (fun th => do
    let g ← kvPage s th .load (th.getX a) (th.getX a)
    kvPermit th .load g
    require (g.count != 0) .kvPoolInvalid g.ptr
    if leafHeld s g then stall else
    if g.count = 1 then
      let hp ← headerPool s g
      let p ← readPool s th hp
      let e ← kvPush s th p
      let ap ← kvAccess s th .store p.addr 64 64
      let s1 := (touchAcc (kvTouch s th [p.acc]) (some th.core) .store e).storePa none e.loc.pa 8 g.base.toNat
      let s2 := writePool s1 th.core ap { p with free := p.free + 1 }
      .ok ((setLeaf s2 g 0 g.owner).retireX d 0)
    else .ok ((setLeaf s g (g.count - 1) g.owner).retireX d (BitVec.ofNat 64 (g.count - 1))))

/-- The page operands of a handover descriptor pass their checks in order (R355 step 4). -/
def passPages (s : State) (th : Thread) : List Word → Check (List KvPage)
  | [] => .ok []
  | q :: rest => do
    let g ← kvPage s th .store q q
    kvPermit th .store g
    require (g.owner == dieOfCore th.core) .kvNotOwner q
    let l ← passPages s th rest
    .ok (g :: l)

/-- The sixteen words of a handover descriptor (R355 step 1). -/
def readDescriptor (s : State) (th : Thread) (ptr : Word) : Check (List Word × State) := do
  let _ ← kvGlobal s th ptr
  require (ptr.toNat % 64 == 0) .loadMisaligned ptr
  loadWords s (cxOf s th) th.place.handle ptr 16

/-- KVPASS (R355, R24). The flag's translation is made before the owners change, and what it puts in the TLBs is invalidated with the rest. -/
def execKvpass (d a : BitVec 5) (_scope : BitVec 3) (s : State) : Outcome :=
  runCheck s (fun th => do
    let ptr := th.getX a
    let (w, s0) ← readDescriptor s th ptr
    let head := w.getD 2 0
    let n := (head.extractLsb' 8 8).toNat
    require (head.extractLsb' 2 6 == 0 && head.extractLsb' 16 48 == 0 && decide (n ≤ 12) && w.getD 15 0 == 0)
      .kvPoolInvalid ptr
    let flag := w.getD 0 0
    let _ ← kvGlobal s0 th flag
    let fa ← checkAccess s0 (cxOf s0 th) th.place.handle .store .scalar false flag 8 8
    if lineHeld s0 fa.loc 8 then stall else
    let pages ← passPages s0 th ((w.drop 3).take n)
    if n != 0 && (pages.any (fun g => pageOutstanding s0 g.pa || leafHeld s0 g)) then stall else
    let target := (head.extractLsb' 0 2).toNat
    let s1 := pages.foldl (fun st g => setLeaf st g g.count target) (touchAcc s0 (some th.core) .store fa)
    let s2 := pages.foldl (fun st g => forgetPageOn st (dieOfCore th.core) g.pa) s1
    .ok ((writeLoc s2 none fa.loc 8 (w.getD 1 0).toNat).retireX d 0))

/-- A copy of n bytes of memory from one address to another that does not overlap it, with the tags and marks of the bytes
written (R317, R119). -/
def copyBytes (s : State) (src dst n : Nat) : State :=
  let moved := (s.mem.filter (fun c => decide (src ≤ c.1) && decide (c.1 < src + n))).map (fun c => (c.1 - src + dst, c.2))
  { s with mem := s.mem.filter (fun c => decide (c.1 < dst)) ++ moved ++ s.mem.filter (fun c => decide (dst + n ≤ c.1)),
           dir := recallDir s.dir dst n,
           tags := clearTags s.tags none dst n, bad := s.bad.filter (fun p => decide (p.1 < dst / 32) || decide ((dst + n) / 32 ≤ p.1)) }

/-- What a KVCOW does (R353): the copy and its step in one; a page with one reference is returned as it is. -/
def kvCow (s : State) (th : Thread) (d a : Reg) : Check State := do
  let o ← kvPage s th .load (th.getX d) (th.getX d)
  kvPermit th .load o
  let (u, p) ← readPurse s th (th.getX a)
  require (o.count != 0) .kvPoolInvalid o.ptr
  if o.count = 1 then .ok ((kvTouch s th [u.acc, p.acc]).retireX d o.base) else
  require (u.remaining != 0) .kvEscrowEmpty u.addr
  if lineHeld s (.dram o.pa) 65536 then stall else
  pageWhole s o 0 65536
  match ← kvDraw s th p with
  | none => .ok (s.waitCur (.broker p.acc.loc.pa true d a))
  | some (g, p', reads) =>
    let (ap, au) ← kvWrites s th u p
    if pageOutstanding s g.pa || leafHeld s g || leafHeld s o || lineHeld s (.dram g.pa) 65536 then stall else
    let s1 := writePool (takeCached (kvTouch s th ([u.acc, p.acc] ++ reads)) th.core p.brokered) th.core ap { p' with escrowed := p'.escrowed - 1 }
    let s2 := writePurse s1 th.core au { u with remaining := u.remaining - 1, drawn := u.drawn + 1 }
    let s3 := (copyBytes s2 o.pa g.pa 65536).storePa none (g.pa + 8) 8 p.addr.toNat
    let s4 := setLeaf (setLeaf s3 g 1 (dieOfCore th.core)) o (o.count - 1) o.owner
    .ok ((forgetPage s4 g.pa).retireX d g.base)

/-- KVCOW (R353). -/
def execKvcow (d a : BitVec 5) (_scope : BitVec 3) (s : State) : Outcome :=
  runCheck s (fun th => kvCow s th d a)

/-- KVSCL (R354). -/
def execKvscl (d a : BitVec 5) (_scope : BitVec 3) (s : State) : Outcome :=
  runCheck s (fun th => do
    let g ← kvPage s th .store (th.getX a) (th.getX a)
    kvPermit th .store g
    require (g.owner == dieOfCore th.core) .kvNotOwner g.ptr
    require (decide (g.count ≤ 1)) .kvSharedWrite g.ptr
    if lineHeld s (.dram g.pa) 4 then stall else
    pageWhole s g 0 4
    let s1 := s.storePa none g.pa 4 ((th.getX d).toNat % 2 ^ 32)
    .ok (s1.retireX d (BitVec.ofNat 64 (s.mem.readLE g.pa 4))))

/-! ### Helben's part -/

/-- The translation context of Helben's accesses to a pool: supervisor mode under the context of a draw. -/
def brokerCx (core : Nat) (k : CtxCsrs) : Cx :=
  { core := none, die := dieOfCore core, mode := .supervisor, asid := k.asid, ptbase := k.ptbase, privbase := 0 }

/-- The physical address of a stack entry of the pool at a physical address; none while it cannot be reached, or a copy engine owns a
line that the access needs (R23). -/
def brokerEntry (s : State) (cx : Cx) (pool i : Nat) : Option Nat :=
  let stack := s.mem.readLE (pool + 8) 8
  match walk s none cx.asid cx.ptbase ((stack + 8 * i) % 2 ^ 52) with
  | .leaf e =>
    let pa := e.pa ((stack + 8 * i) % 2 ^ 52)
    if ownedAt s true pa 8 || ownedAt s true pool 64 then none else some pa
  | _ => none

/-- Pushes cached pages back on their pool's stack, newest first (R357): free + 1 and granted − 1 for each; the pages that could not
be pushed yet, and the state. -/
def returnPages (s : State) (cx : Cx) (pool : Nat) : List Word → List Word × State
  | [] => ([], s)
  | q :: rest =>
    let free := s.mem.readLE pool 4
    match brokerEntry s cx pool free with
    | some pa =>
      let s1 := s.storePa none pa 8 q.toNat
      let s2 := s1.storePa none pool 4 (free + 1)
      returnPages (s2.storePa none (pool + 24) 4 (s2.mem.readLE (pool + 24) 4 - 1)) cx pool rest
    | none => (q :: rest, s)

/-- A core's broker cache gives back the pages of its pool. -/
def returnCache (s : State) (cx : Cx) (core : Nat) : State :=
  let c := s.core core
  match c.brokerOf with
  | some (pool, _) =>
    let r := returnPages s cx pool c.broker
    r.2.putCore core { r.2.core core with broker := r.1, brokerOf := if r.1.isEmpty then none else c.brokerOf }
  | none => s

/-- The caches of a pool's pages in the shadow images of swapped-out partitions give them back (R347, R357). -/
def returnShadows (s : State) (cx : Cx) (pool : Nat) : State :=
  s.helben.shadows.foldl (fun st p =>
    p.2.cores.foldl (fun st2 q =>
      if (q.2.brokerOf.map (·.1)) = some pool then
        let r := returnPages st2 cx pool q.2.broker
        r.2.modHelben (fun h => { h with shadows := h.shadows.map (fun x => if x.1 = p.1 then
          (x.1, { x.2 with cores := x.2.cores.put q.1 { q.2 with broker := r.1, brokerOf := if r.1.isEmpty then none else q.2.brokerOf } })
          else x) })
      else st2) st) s

/-- The caches of all cores but one that hold pages of a pool give them back, those of swapped-out partitions too. -/
def returnOthers (s : State) (cx : Cx) (pool : Nat) (but : Option Nat) : State :=
  returnShadows ((s.cores.filter (fun p => (p.2.brokerOf.map (·.1)) == some pool && some p.1 != but)).foldl
    (fun st p => returnCache st cx p.1) s) cx pool

/-- Whether some cache holds pages of a pool. -/
def poolCached (s : State) (pool : Nat) : Bool :=
  s.cores.any (fun p => (p.2.brokerOf.map (·.1)) == some pool)
    || s.helben.shadows.any (fun p => p.2.cores.any (fun q => (q.2.brokerOf.map (·.1)) == some pool))

/-- Pops up to n pages from a pool's stack for a broker cache (R357): the pages, newest first, and the state. -/
def grantPages (s : State) (cx : Cx) (pool : Nat) : Nat → List Word → List Word × State
  | 0, got => (got, s)
  | n + 1, got =>
    let free := s.mem.readLE pool 4
    if free = 0 then (got, s) else
    match brokerEntry s cx pool (free - 1) with
    | some pa =>
      let q : Word := BitVec.ofNat 64 (s.mem.readLE pa 8)
      let s1 := s.storePa none pool 4 (free - 1)
      grantPages (s1.storePa none (pool + 24) 4 (s1.mem.readLE (pool + 24) 4 + 1)) cx pool n (q :: got)
    | none => (got, s)

/-- What Helben does to a core's broker cache on a request for a pool (R357): the pages of another pool go back to their stack; once
the cache is free of them it is filled up to 4 pages from the pool's stack. While that is empty, the pages that other caches hold go back to
it first, so that a reserved draw succeeds (R347; log 79). -/
def refillCache (s : State) (core pool : Nat) (k : CtxCsrs) : State :=
  let s1 := match (s.core core).brokerOf with
    | some (old, k') => if old = pool then s else returnCache s (brokerCx core k') core
    | none => s
  let c := s1.core core
  if c.brokerOf.isSome && (c.brokerOf.map (·.1)) != some pool then s1
  else
    let cx := brokerCx core k
    let s2 := if c.broker.isEmpty && s1.mem.readLE pool 4 == 0 then returnOthers s1 cx pool (some core) else s1
    let r := grantPages s2 cx pool (4 - c.broker.length) c.broker
    if r.1.isEmpty then r.2 else r.2.putCore core { r.2.core core with broker := r.1, brokerOf := some (pool, k) }

/-- BROKER_REQUEST (R357): Helben answers the request of a thread that waits for a page of a brokered pool, and the thread's draw
proceeds with the answer, so that no other request of its core takes the pages between. While the draw cannot proceed (no page,
or an access that it waits for) only the pages of another pool go back. A pool whose flag has been cleared since is drawn from as any
other. -/
def execBrokerRequest (t : Nat) (s : State) : Outcome :=
  match s.thread t with
  | some th =>
    match th.wait with
    | some (.broker pool cow d a) =>
      let s1 := if s.mem.readLE (pool + 20) 4 % 2 = 1 then refillCache s th.core pool (s.csrsOf th) else s
      let th1 := { th with wait := none }
      let s2 := { s1.putThread t th1 with cur := t }
      match (if cow then kvCow s2 th1 d a else kvTake s2 th1 d a) with
      | .ok s3 => .next { s3 with cur := s.cur }
      | .error (some tr) => .next { s2.takeTrap t tr with cur := s.cur }
      | .error none => .next s
    | _ => .next s
  | none => .next s

/-- BROKER_FLAG_CHANGE (R357): Helben sets or clears the brokered flag of a valid pool; before it clears the flag, it
pushes every cached page of the pool back, and the flag stays while one cannot be. -/
def execBrokerFlagChange (pool ptbase : Word) (set : Bool) (s : State) : Outcome :=
  let cx : Cx := { core := none, die := 0, mode := .supervisor, asid := 0, ptbase := ptbase, privbase := 0 }
  match walk s none 0 ptbase (pool.extractLsb' 0 52).toNat with
  | .leaf e =>
    let pa := e.pa (pool.extractLsb' 0 52).toNat
    let acc : Acc := { ptr := pool, loc := .dram pa, hit := none, win := 0 }
    if pool.toNat % 64 ≠ 0 || !(poolAt s pool acc).2 || ownedAt s true pa 64 then .next s
    else if set then .next (s.storePa none (pa + 20) 4 1)
    else
      let s1 := returnOthers s cx pa none
      if poolCached s1 pa then .next s1 else .next (s1.storePa none (pa + 20) 4 0)
  | _ => .next s

end Sys2Proof.Machine
end

