-- ==== Sys2Proof/Machine/Matrix.lean ====
section
/-!
DEFINITION. The matrix engine (12_matrix): accumulator tiles (R227 to R229), MXCFG and MXCNT (R230, R231), MMA with exact
sums (R232 to R236), Mint panels (R197 to R201, R233), MLD and MST (R238, R239), MRDV and MWRV (R240), MCFG and MFLG
(R241, R242), and the events that complete a matrix head. Operands are read when the instruction issues.
-/
namespace Sys2Proof.Machine

/-! ### Tiles and counters -/

/-- A tile of a core. -/
def Core.tile (c : Core) (acc : BitVec 3) : Tile := c.tiles[acc.toNat]'(acc.isLt)
/-- Writes a tile of a core. -/
def Core.setTile (c : Core) (acc : BitVec 3) (t : Tile) : Core := { c with tiles := c.tiles.set acc.toNat t acc.isLt }
/-- The tile of the current thread's core, if it holds it (R227). -/
def heldTile (s : State) (th : Thread) (acc : BitVec 3) : Except Trap Tile :=
  let t := (s.core th.core).tile acc
  if t.holder = some s.cur then .ok t
  else .error { cause := .matrixTileNotHeld, val := acc.zeroExtend 64 }

/-- Element n = 32 i + j of a tile. -/
def Tile.elem (t : Tile) (n : Nat) : Nat := (t.elems.extractLsb' (40 * n) 40).toNat
/-- The elements of a tile from a list. -/
def elemsOfList (l : List Nat) : BitVec 40960 := BitVec.ofNat 40960 (packElems 40 l)
/-- Clamp bits from a list. -/
def clampOfList (l : List Bool) : BitVec 1024 := BitVec.ofNat 1024 (packElems 1 (l.map (fun b => if b then 1 else 0)))

/-- What one instruction adds to MXCNT, from the flags of its elements (R231). -/
def countFlags (l : List (BitVec 5)) : Word :=
  let n := fun (i : Nat) => (l.filter (fun f => f.getLsbD i)).length
  BitVec.ofNat 64 (n 0 + n 2 * 2 ^ 16 + n 3 * 2 ^ 32 + n 4 * 2 ^ 48)

/-- MXCNT after an instruction: each counter saturates at 0xFFFF (R231). -/
def addCounts (a b : Word) : Word :=
  let one := fun (i : Nat) => min 0xFFFF ((a.extractLsb' (16 * i) 16).toNat + (b.extractLsb' (16 * i) 16).toNat)
  BitVec.ofNat 64 (one 0 + one 1 * 2 ^ 16 + one 2 * 2 ^ 32 + one 3 * 2 ^ 48)

/-- The rounding mode of MXCFG (R230). -/
def mxRm (th : Thread) : BitVec 2 := th.mxcfg.truncate 2
/-- Whether MXCFG asks for saturation (R230). -/
def mxSat (th : Thread) : Bool := th.mxcfg.getLsbD 2

/-- The meaning of a short matrix instruction that uses a tile: `k` gives the thread and the tile. A shadow's trap waits for
the head (R57). -/
def runTile (s : State) (acc : BitVec 3) (k : Thread → Tile → Thread × Tile) : Outcome :=
  match s.current with
  | none => .fault .noThread
  | some th =>
    match heldTile s th acc with
    | .error tr => if th.head.isSome then .next s else .next (s.takeTrap s.cur tr)
    | .ok t =>
      let r := k th t
      .next (((s.putCore th.core ((s.core th.core).setTile acc r.2)).putThread s.cur
        ((r.1.retire s.cycle).countShadow)).grantTiles th.core)

/-- MACQ (R229): the tile is granted at once when it is free or held by the thread, else the thread waits. -/
def runMacq (s : State) (acc : BitVec 3) (int : Bool) : Outcome :=
  runState s (fun th =>
    let c := s.core th.core
    let h := (c.tile acc).holder
    if h = none ∨ h = some s.cur then
      .ok ((s.putCore th.core (c.setTile acc { holder := some s.cur, int := int, elems := 0, clamp := 0 })).retireCur)
    else .ok (s.waitCur (.macq acc int s.cycle)))

/-! ### Operand regions -/

/-- The order of R116 at which a cause stands. -/
def causeOrder (c : Cause) : Nat :=
  match c with
  | .privileged => 1
  | .spaceInvalid => 1
  | .loadMisaligned => 2
  | .storeMisaligned => 2
  | .loadPageFault => 3
  | .storePageFault => 3
  | .pageTableCorrupt => 3
  | .remoteUnreachable => 3
  | .loadProtection => 4
  | .storeProtection => 4
  | .attributeConflict => 5
  | .kvNotOwner => 6
  | .kvSharedWrite => 6
  | .bankModeMismatch => 7
  | .channelMisuse => 7
  | _ => 8

/-- Cuts n bytes at an address into pieces at multiples of `step`: offsets and sizes. -/
def piecesFrom (step : Nat) : Nat → Nat → Nat → Nat → List (Nat × Nat)
  | 0, _, _, _ => []
  | fuel + 1, ptr, off, n =>
    if n = 0 then [] else
    let k := min n (step - ptr % step)
    (off, k) :: piecesFrom step fuel (ptr + k) (off + k) (n - k)

/-- The worse of two failed checks: the lower order of R116, then the lower address. -/
def worse (a b : Option Trap) : Option Trap :=
  if causeOrder ((b.map (·.cause)).getD .machineCheck) < causeOrder ((a.map (·.cause)).getD .machineCheck) then b else a

/-- Checks every piece of a region; the lowest order of R116 decides, then the lowest address. A piece that must wait makes
the region wait unless another traps. -/
def checkPieces (s : State) (th : Thread) (kind : AccessKind) (role : Role) (ptr : Word) :
    List (Nat × Nat) → Check (List (Acc × Nat))
  | [] => .ok []
  | (off, n) :: rest =>
    let first := checkAccess s (cxOf s th) th.place.handle kind role false (ptr + BitVec.ofNat 64 off) n 1
    let others := checkPieces s th kind role ptr rest
    match first, others with
    | .ok a, .ok l => .ok ((a, n) :: l)
    | .error e, .ok _ => .error e
    | .ok _, .error e => .error e
    | .error none, .error e => .error e
    | .error (some t), .error none => .error (some t)
    | .error a, .error b => .error (worse a b)

/-- Checks a region of n bytes that the matrix engine accesses, aligned to `align`: a REMOTE pointer traps SPACE_INVALID
(R232), and orders 1 and 2 of R116 come first for the whole region. -/
def checkRegion (s : State) (th : Thread) (kind : AccessKind) (role : Role) (ptr : Word) (n align : Nat) :
    Check (List (Acc × Nat)) :=
  let cx := cxOf s th
  match spaceOf cx (clusterOfCore th.core) kind false ptr with
  | .error t => .error (some t)
  | .ok (.remote _ _) => trapOf .spaceInvalid ptr
  | .ok sp =>
    if ptr.toNat % align ≠ 0 then trapOf (misalignedOf kind) ptr else
    match sp with
    | .bank _ _ off _ =>
      if 2 ^ 17 < off + n then trapOf (misalignedOf kind) ptr
      else checkPieces s th kind role ptr (piecesFrom 64 (n / 64 + 2) ptr.toNat 0 n)
    | _ => checkPieces s th kind role ptr (piecesFrom 65536 (n / 65536 + 2) ptr.toNat 0 n)

/-- The bytes of a region. -/
def regionBytes (s : State) (l : List (Acc × Nat)) : List Nat :=
  (l.map (fun p => (List.range p.2).map (fun i => readLoc s (p.1.loc.shift i) 1))).flatten

/-- Whether a copy engine owns a line of a region (R23, R243). -/
def regionHeld (s : State) (l : List (Acc × Nat)) : Bool := l.any (fun p => lineHeld s p.1.loc p.2)

/-- The pointer of the first byte of a region that is marked uncorrectable. -/
def regionBad (s : State) (l : List (Acc × Nat)) : Option Word :=
  (l.find? (fun p => locBad s p.1.loc p.2)).map (fun p =>
    p.1.ptr + BitVec.ofNat 64 (((List.range p.2).find? (fun i => locBad s (p.1.loc.shift i) 1)).getD 0))

/-- The words of a region on L pages whose tag is not VALUE, in address order: physical address and pointer (R235). -/
def regionCells (s : State) (l : List (Acc × Nat)) : List (Nat × Word) :=
  (l.map (fun p =>
    match p.1.loc with
    | .dram pa =>
      if !p.1.lpage then [] else
      ((List.range ((pa + p.2 - 1) / 8 + 1 - pa / 8)).map (fun i => pa / 8 * 8 + 8 * i)).filterMap (fun w =>
        if s.tag w = 0 then none else some (w, (p.1.ptr - BitVec.ofNat 64 (pa % 8)) + BitVec.ofNat 64 (w - pa / 8 * 8)))
    | _ => [])).flatten

/-- What the data of a checked operand makes of an MMA or MLD: it waits for an owned line; a marked byte (R245) or a word
that is not VALUE (R235) becomes the head's end; none when every byte is data. -/
def operandStop (s : State) (acc : BitVec 3) (bad : Word → Word) (l : List (Acc × Nat)) : Check (Option HeadOp) :=
  if regionHeld s l then stall else
  match regionBad s l with
  | some p => .ok (some (.marked acc (bad p)))
  | none => .ok ((regionCells s l).head?.map (fun q => .cells acc q.1 q.2))

/-- The physical addresses at which the pieces of a region in DRAM begin. -/
def regionStarts (l : List (Acc × Nat)) : List Nat :=
  l.filterMap (fun p => match p.1.loc with
    | .dram pa => some pa
    | _ => none)

/-- Whether a region lies on an L page. -/
def regionL (l : List (Acc × Nat)) : Bool := l.any (fun p => p.1.lpage)

/-- The page-table and TLB effects of a region that passed its checks. -/
def touchRegion (s : State) (core : Nat) (kind : AccessKind) (l : List (Acc × Nat)) : State :=
  l.foldl (fun st p => touchAcc st (some core) kind p.1) s

/-- The pair with the lowest pointer. -/
def lowestCell : List (Nat × Word) → Option (Nat × Word)
  | [] => none
  | p :: rest => some (rest.foldl (fun m q => if q.2.toNat < m.2.toNat then q else m) p)

/-! ### Mint blocks (R197 to R200) -/

/-- Reads ones up to a maximum: how many, whether a zero ended them, and the bits after. -/
def takeOnes : Nat → List Bool → Option (Nat × Bool × List Bool)
  | 0, bits => some (0, false, bits)
  | _ + 1, [] => none
  | _ + 1, false :: rest => some (0, true, rest)
  | n + 1, true :: rest => (takeOnes n rest).map (fun r => (r.1 + 1, r.2.1, r.2.2))

/-- Reads n bits, most significant first. -/
def takeBits : Nat → Nat → List Bool → Option (Nat × List Bool)
  | 0, acc, bits => some (acc, bits)
  | _ + 1, _, [] => none
  | n + 1, acc, b :: rest => takeBits n (2 * acc + if b then 1 else 0) rest

/-- The zigzag value of a token of tables 1 to 3, and the bits after it; none when it is malformed or runs past the
limit. -/
def mintToken (t : Nat) (bits : List Bool) : Option (Nat × List Bool) :=
  match takeOnes (if t = 2 then 4 else 8) bits with
  | none => none
  | some (q, zero, rest) =>
    if t = 3 then
      if zero then some (q, rest) else (takeBits 3 0 rest).map (fun r => (8 + r.1, r.2))
    else if !zero then none
    else if t = 1 then (takeBits 1 0 rest).map (fun r => (2 * q + r.1, r.2))
    else (takeBits 2 0 rest).map (fun r => (4 * q + r.1, r.2))

/-- The exponent of a token (R198) and the bits after it. -/
def mintExponent (t p : Nat) (bits : List Bool) : Option (Nat × List Bool) :=
  if t = 0 then takeBits 4 0 bits
  else (mintToken t bits).map (fun r =>
    let d : Int := if r.1 % 2 = 0 then (r.1 / 2 : Nat) else -(((r.1 + 1) / 2 : Nat) : Int)
    (((p + d) % 16).toNat, r.2))

/-- The exponents of n elements. -/
def mintExponents (t p : Nat) : Nat → List Bool → Option (List Nat)
  | 0, _ => some []
  | n + 1, bits =>
    match mintExponent t p bits with
    | none => none
    | some (e, rest) => (mintExponents t p n rest).map (fun l => e :: l)

/-- The 32 elements of a block from its bytes up to its limit, at most 62 of them; none when it is malformed (R199, R200). -/
def mintBlock (bytes : List Nat) : Option (List FVal) :=
  let byte := fun i => bytes.getD i 0
  if bytes.length < 18 then none
  else if 64 ≤ byte 1 then none
  else if byte 0 = 255 then some (List.replicate 32 (.nan false))
  else
    let stream := ((bytes.drop 18).map (fun b => (List.range 8).map (fun i => b / 2 ^ i % 2 == 1))).flatten
    match mintExponents (byte 1 / 16 % 4) (byte 1 % 16) 32 stream with
    | none => none
    | some es =>
      some (((List.range 32).zip es).map (fun p =>
        let nib := byte (2 + p.1 / 2) / (if p.1 % 2 = 0 then 1 else 16) % 16
        match e4m3.decode (nib / 8 * 128 + p.2 * 8 + nib % 8) with
        | .fin neg m e => .fin neg m (e + (byte 0 : Int) - 127)
        | _ => .nan false))

/-- A block of a Mint panel as the instruction uses it: its address, how many bytes it has up to its limit, the region it
reads, and whether its offset is bad (R200, R201). -/
structure MintRef where
  addr : Word
  size : Nat
  part : List (Acc × Nat)
  bad  : Bool
  deriving DecidableEq, Repr

/-- The region that the MMA reads of a block of n bytes, checked. The nibbles and tokens of a block whose scale is 255 are not
read (R199). DESIGN CHOICE (log 40): of any other block, every byte up to its limit, at most 62, is checked and looked at
for marks and tags, those past the 32nd token among them; the spec says only that their value is ignored. -/
def blockRegion (s : State) (th : Thread) (addr : Word) (n : Nat) : Check (List (Acc × Nat)) :=
  match checkRegion s th .load .engineLoad addr 2 1 with
  | .ok p =>
    if 18 ≤ n ∧ (regionBad s p).isNone ∧ (regionBytes s p).headD 0 = 255 then .ok p
    else checkRegion s th .load .engineLoad addr n 1
  | .error _ => checkRegion s th .load .engineLoad addr n 1

/-- Checks the 64 blocks of a panel in table order (R233, R235 row 5). -/
def checkBlocks (s : State) (th : Thread) (pb : Word) (nb : Nat) (offs : Nat → Nat) : List Nat → Check (List MintRef)
  | [] => .ok []
  | idx :: rest =>
    let off := offs idx
    let lim := if idx + 1 < 32 * nb then offs (idx + 1) else off + 62
    let n := min lim (off + 62) - off
    let bad := decide (off < 128 * nb)
    let addr := pb + BitVec.ofNat 64 off
    match (if bad || n == 0 then .ok [] else blockRegion s th addr n) with
    | .error e => .error e
    | .ok part =>
      match checkBlocks s th pb nb offs rest with
      | .error e => .error e
      | .ok l => .ok ({ addr := addr, size := n, part := part, bad := bad } :: l)

/-- The bytes of a block up to its limit; those it does not read stand as zero. -/
def MintRef.bytes (s : State) (r : MintRef) : List Nat :=
  let l := regionBytes s r.part
  l ++ List.replicate (r.size - l.length) 0

/-- The decoded blocks, or the address of the first malformed one. -/
def decodeBlocks (s : State) : List MintRef → Except Trap (List (List FVal))
  | [] => .ok []
  | r :: rest =>
    match (if r.bad then none else mintBlock (r.bytes s)) with
    | none => .error { cause := .mintDecodeError, val := r.addr }
    | some es => (decodeBlocks s rest).map (fun l => es :: l)

/-! ### The product -/

/-- Consecutive pieces of n elements. -/
def chop {α : Type} (n : Nat) : Nat → List α → List (List α)
  | 0, _ => []
  | k + 1, l => l.take n :: chop n k (l.drop n)

/-- The elements of an operand of 2,048 bytes as 32 vectors of a format (R232). -/
def floatVectors (F : Fmt) (bytes : List Nat) : List (List FVal) :=
  if F.bits = 16 then
    (chop 64 32 bytes).map (fun v => (chop 2 32 v).map (fun p => F.decode (p.getD 0 0 + 256 * p.getD 1 0)))
  else (chop 64 32 bytes).map (fun v => v.map F.decode)

/-- The elements of an INT8 operand. -/
def intVectors (bytes : List Nat) : List (List Int) := (chop 64 32 bytes).map (fun v => v.map (signedOf 8))

/-- One element of a float kind (R234): `c` is the old element, none in set mode; `sub` takes the products' signs around. -/
def mmaFloat (rm : BitVec 2) (sub : Bool) (c : Option FVal) (row col : List FVal) : FRes :=
  let prods := (row.zip col).map (fun p =>
    let r := p.1.mul p.2
    (if sub then r.1.negate else r.1, r.2))
  let terms := c.toList ++ prods.map (·.1)
  let pInf := terms.contains (.inf false)
  let nInf := terms.contains (.inf true)
  let nv := prods.any (·.2) || c.toList.any FVal.isSignalling || (pInf && nInf)
  if terms.any FVal.isNaN || (pInf && nInf) then (fp40.canonicalNaN, if nv then flagNV else 0)
  else if pInf then (fp40.infinity false, 0)
  else if nInf then (fp40.infinity true, 0)
  else match sumExact rm terms with
    | (.fin neg m e, _) =>
      if m = 0 then (fp40.sign (terms.all FVal.neg || rm == rdn) 0, 0) else fp40.arith rm neg m e false
    | _ => (fp40.canonicalNaN, 0)

/-- One element of the integer kind (R234): its value, its clamp bit and its flags. -/
def mmaInt (sat : Bool) (mode : BitVec 2) (c : Nat) (clamped : Bool) (row col : List Int) : Nat × Bool × BitVec 5 :=
  let t := (row.zip col).foldl (fun acc p => acc + p.1 * p.2) 0
  let e : Int := if mode = 1 then t else if mode = 2 then signedOf 40 c - t else signedOf 40 c + t
  if sat then
    if clamped then (c, true, 0)
    else if e < -(2 ^ 39) then (2 ^ 39, true, flagOF)
    else if 2 ^ 39 - 1 < e then (2 ^ 39 - 1, true, flagOF)
    else ((e % 2 ^ 40).toNat, false, 0)
  else ((e % 2 ^ 40).toNat, clamped, 0)

/-- Every (row, column) pair in element order, with the element's number. -/
def eachElem {α : Type} (rows cols : List (List α)) : List (Nat × List α × List α) :=
  ((List.range 1024)).map (fun n => (n, rows.getD (n / 32) [], cols.getD (n % 32) []))

/-- The tile after a float MMA and what MXCNT gains (R234, R231). -/
def mmaFloatTile (t : Tile) (rm mode : BitVec 2) (rows cols : List (List FVal)) : BitVec 40960 × Word :=
  let res := (eachElem rows cols).map (fun p =>
    mmaFloat rm (mode == 2) (if mode = 1 then none else some (fp40.decode (t.elem p.1))) p.2.1 p.2.2)
  (elemsOfList (res.map (·.1)), countFlags (res.map (·.2)))

/-- The tile after an integer MMA and what MXCNT gains. -/
def mmaIntTile (t : Tile) (sat : Bool) (mode : BitVec 2) (rows cols : List (List Int)) :
    BitVec 40960 × BitVec 1024 × Word :=
  let res := (eachElem rows cols).map (fun p => mmaInt sat mode (t.elem p.1) (t.clamp.getLsbD p.1) p.2.1 p.2.2)
  (elemsOfList (res.map (·.1)), clampOfList (res.map (·.2.1)), countFlags (res.map (·.2.2)))

/-- The formats of A and B by the fmt field (R232). -/
def mmaFormats (fmt : Nat) : Fmt × Fmt :=
  match fmt with
  | 0 => (e4m3, e4m3)
  | 1 => (e5m2, e5m2)
  | 2 => (e4m3, e5m2)
  | 3 => (e5m2, e4m3)
  | 4 => (bf16, bf16)
  | _ => (fp16, fp16)

/-- Issues a matrix head (R236): on an L page its la counts as 0 (R56). -/
def State.issueMatrix (s : State) (th : Thread) (acc : BitVec 3) (la : BitVec 4) (onL : Bool) (op : HeadOp)
    (reads : List Nat) : State :=
  s.putThread s.cur (th.issueHead s.cycle op (.tile acc) (if onL then 0 else la.toNat) reads)

/-- The checks of R235 rows 2 and 3: the tile. -/
def mmaTile (s : State) (th : Thread) (acc : BitVec 3) (fmt : Nat) : Check Tile :=
  match heldTile s th acc with
  | .error t => .error (some t)
  | .ok t => if t.int == (fmt == 6) then .ok t else trapOf .matrixFormatInvalid (BitVec.ofNat 64 fmt)

/-- The head of an MMA whose operands are data: the tile it writes and what it counts (R234). -/
def mmaOp (acc : BitVec 3) (t : Tile) (th : Thread) (mode : BitVec 2) (fmt : Nat) (ba bb : List Nat) : HeadOp :=
  if fmt = 6 then
    let r := mmaIntTile t (mxSat th) mode (intVectors ba) (intVectors bb)
    .mma acc r.1 r.2.1 r.2.2
  else
    let f := mmaFormats fmt
    let r := mmaFloatTile t (mxRm th) mode (floatVectors f.1 ba) (floatVectors f.2 bb)
    .mma acc r.1 t.clamp r.2

/-- MMA with two regions of 2,048 bytes (R232, R234, R235). -/
def runMma (s : State) (acc : BitVec 3) (mode : BitVec 2) (a b : Reg) (la : BitVec 4) (fmt : Nat) : Outcome :=
  runCheck s (fun th =>
    match mmaTile s th acc fmt with
    | .error e => .error e
    | .ok t =>
      match checkRegion s th .load .engineLoad (th.getX a) 2048 64 with
      | .error e => .error e
      | .ok ra =>
        match checkRegion s th .load .engineLoad (th.getX b) 2048 64 with
        | .error e => .error e
        | .ok rb =>
          match operandStop s acc id (ra ++ rb) with
          | .error e => .error e
          | .ok stop =>
            let s1 := touchRegion (touchRegion s th.core .load ra) th.core .load rb
            .ok (s1.issueMatrix th acc la (regionL ra || regionL rb)
              (stop.getD (mmaOp acc t th mode fmt (regionBytes s ra) (regionBytes s rb))) (regionStarts (ra ++ rb))))

/-- The head of an MMA.mint whose operands are data. -/
def mintOp (acc : BitVec 3) (t : Tile) (th : Thread) (mode : BitVec 2) (ba : List Nat) (es : List (List FVal)) : HeadOp :=
  let r := mmaFloatTile t (mxRm th) mode (floatVectors e4m3 ba) ((chop 2 32 es).map List.flatten)
  .mma acc r.1 t.clamp r.2

/-- The table indices of the 64 blocks of an MMA.mint, column by column (R233). -/
def mintIndices (nb j0 : Nat) : List Nat := ((List.range 32).map (fun j => [j * nb + j0, j * nb + j0 + 1])).flatten

/-- An entry of a panel's offset table (R201). -/
def mintOffset (table : List Nat) (i : Nat) : Nat :=
  (List.range 4).foldl (fun v k => v + table.getD (4 * i + k) 0 * 256 ^ k) 0

/-- MMA.mint (R233): the B operand is a Mint panel. DESIGN CHOICE (log 40): all 128 × nb bytes of the offset table are checked
and looked at for marks and tags, those of entries that the instruction does not use among them; and a mark in the table is
reported before a mark in A and before the blocks' access checks, which need the table. -/
def runMint (s : State) (acc : BitVec 3) (mode : BitVec 2) (a b : Reg) (la : BitVec 4) : Outcome :=
  runCheck s (fun th =>
    match mmaTile s th acc 7 with
    | .error e => .error e
    | .ok t =>
      let pb := th.getX b
      let j0 := ((th.getX (b + 1)).extractLsb' 0 16).toNat
      let nb := ((th.getX (b + 1)).extractLsb' 16 16).toNat
      if nb < 2 ∨ nb < j0 + 2 then trapOf .matrixFormatInvalid 7 else
      match checkRegion s th .load .engineLoad (th.getX a) 2048 64 with
      | .error e => .error e
      | .ok ra =>
        match checkRegion s th .load .engineLoad pb (128 * nb) 4 with
        | .error e => .error e
        | .ok rt =>
          if regionHeld s ra || regionHeld s rt then stall else
          match regionBad s rt with
          | some p => trapOf .uncorrectableData p
          | none =>
            let s1 := touchRegion (touchRegion s th.core .load ra) th.core .load rt
            match regionCells s rt with
            | q :: _ =>
              .ok (s1.issueMatrix th acc la true
                (((regionCells s ra).head?.map (fun p => .cells acc p.1 p.2)).getD (.cells acc q.1 q.2)) (regionStarts (ra ++ rt)))
            | [] =>
              match checkBlocks s th pb nb (mintOffset (regionBytes s rt)) (mintIndices nb j0) with
              | .error e => .error e
              | .ok blocks =>
                let rb := (blocks.map (·.part)).flatten
                let s2 := touchRegion s1 th.core .load rb
                let onL := regionL ra || regionL rt || regionL rb
                let reads := regionStarts (ra ++ rt ++ rb)
                if regionHeld s rb then stall else
                match regionBad s ra, regionBad s rb with
                | some p, _ => .ok (s2.issueMatrix th acc la onL (.marked acc p) reads)
                | none, some p => .ok (s2.issueMatrix th acc la onL (.marked acc p) reads)
                | none, none =>
                  match regionCells s ra ++ (lowestCell (regionCells s rb)).toList with
                  | q :: _ => .ok (s2.issueMatrix th acc la true (.cells acc q.1 q.2) reads)
                  | [] =>
                    match decodeBlocks s blocks with
                    | .error tr => .error (some tr)
                    | .ok es => .ok (s2.issueMatrix th acc la onL (mintOp acc t th mode (regionBytes s ra) es) reads))

/-! ### MLD and MST -/

/-- The size of an element of a code (R238). -/
def codeSize (code : Nat) : Nat :=
  match code with
  | 0 => 4
  | 1 => 2
  | 2 => 2
  | 3 => 1
  | 4 => 1
  | 5 => 4
  | 6 => 1
  | _ => 8

/-- The codes that a kind admits (R238). -/
def codeOk (store int : Bool) (code : Nat) : Bool :=
  match store, int with
  | false, false => code == 0 || code == 7
  | false, true => code == 5 || code == 7
  | true, false => decide (code ≤ 4) || code == 7
  | true, true => code == 5 || code == 6 || code == 7

/-- A container or element that MLD reads, as a tile element (R238). -/
def mldElem (int : Bool) (code v : Nat) : FRes :=
  if code = 7 then (v % 2 ^ 40, 0)
  else if int then ((signedOf 32 v % 2 ^ 40).toNat, 0)
  else fp40.widen (fp32.decode v)

/-- An integer tile element in n bits: clamped under SAT, counting OF alone, or its low bits (R238, R240). -/
def intForm (n : Nat) (sat : Bool) (v : Nat) : FRes :=
  if sat then
    let r := satInt n (signedOf 40 v)
    (r.1, if r.2 = 0 then 0 else flagOF)
  else (v % 2 ^ n, 0)

/-- A tile element as MST stores it (R238). -/
def mstElem (int sat : Bool) (rm : BitVec 2) (code v : Nat) : FRes :=
  if code = 7 then (if int then (signedOf 40 v % 2 ^ 64).toNat else v, 0)
  else if int then intForm (8 * codeSize code) sat v
  else
    let F := match code with
      | 0 => fp32
      | 1 => bf16
      | 2 => fp16
      | 3 => e4m3
      | _ => e5m2
    F.narrow rm (fp40.decode v)

/-- The piece that holds a byte of a row, and the byte's place in it. -/
def pieceAt : List (Acc × Nat) → Nat → Option (Acc × Nat)
  | [], _ => none
  | (a, n) :: rest, off => if off < n then some (a, off) else pieceAt rest (off - n)

/-- The lane of an element of a row: its number in the tile, its place in the row, its size and its data. -/
def rowLane (row : List (Acc × Nat)) (idx k z : Nat) (data : Word) : Option Lane :=
  (pieceAt row (k * z)).map (fun q =>
    { idx := idx, ptr := q.1.ptr + BitVec.ofNat 64 q.2, loc := q.1.loc.shift q.2, lpage := q.1.lpage, win := 0, data := data })

/-- The trap of the first of the elements of an MST that its word's tag refuses: UNCORRECTABLE_DATA reports the pointer of the row,
CELL_BUSY_WRITE the cell's address (R239, R246). -/
def busyRow (s : State) (th : Thread) (lanes : List Lane) : Option Trap :=
  lanes.findSome? (fun l => (l.busy s th).map (fun tr =>
    if tr.cause = .uncorrectableData then
      { tr with val := ((lanes.find? (fun x => x.idx == l.idx / 32 * 32)).map (·.ptr)).getD tr.val } else tr))

/-- Order 8 of R116 for a row of a store, as it stands: it waits for an owned line, or its first element that cannot be written traps. -/
def rowStop (s : State) (th : Thread) (z : Nat) (row : List (Acc × Nat)) : Check Unit :=
  if regionHeld s row then stall else
  match busyRow s th ((List.range 32).filterMap (fun k => rowLane row k k z 0)) with
  | some tr => .error (some tr)
  | none => .ok ()

/-- Checks the 32 rows in order; the first failing row decides, with EVAL its pointer (R239). A load's row fails also by its
data, which becomes the head's end: the rows after it are not looked at. A store's rows meet their tags when the MST completes, but where a
later row traps, a row before it that fails by its tags traps first. -/
def checkRows (s : State) (th : Thread) (acc : BitVec 3) (store : Bool) (n align : Nat) :
    List Word → Check (List (List (Acc × Nat)) × Option HeadOp)
  | [] => .ok ([], none)
  | ptr :: rest =>
    match checkRegion s th (if store then .store else .load) (if store then .engineStore else .engineLoad) ptr n align with
    | .error (some t) => .error (some { t with val := ptr })
    | .error none => .error none
    | .ok r =>
      match (if store then .ok none else operandStop s acc (fun _ => ptr) r) with
      | .error e => .error e
      | .ok (some op) => .ok ([r], some op)
      | .ok none =>
        match checkRows s th acc store n align rest with
        | .error (some t) =>
          match (if store then rowStop s th align r else .ok ()) with
          | .error e => .error e
          | .ok () => .error (some t)
        | .error none => .error none
        | .ok l => .ok (r :: l.1, l.2)

/-- What MLD and MST share (R238, R239): the tile, the code, its element size and the checked rows. -/
def checkTileMove (s : State) (th : Thread) (acc : BitVec 3) (a b : Reg) (store : Bool) :
    Check (Tile × Nat × List (List (Acc × Nat)) × Option HeadOp) :=
  let xb := th.getX b
  let code := (xb.extractLsb' 0 3).toNat
  let z := codeSize code
  if xb.extractLsb' 3 29 ≠ 0 then trapOf .reservedField th.pc else
  match heldTile s th acc with
  | .error t => .error (some t)
  | .ok t =>
    if !codeOk store t.int code then trapOf .matrixFormatInvalid (if store then 5 else 4) else
    let stride : Word := if xb.extractLsb' 32 32 = 0 then BitVec.ofNat 64 (32 * z) else (xb.extractLsb' 32 32).zeroExtend 64
    match checkRows s th acc store (32 * z) z ((List.range 32).map (fun i => th.getX a + BitVec.ofNat 64 i * stride)) with
    | .error e => .error e
    | .ok rows => .ok (t, code, rows)

/-- The element of a little-endian group of bytes. -/
def ofBytes (l : List Nat) : Nat := l.foldr (fun b acc => b + 256 * acc) 0

/-! ### The instructions -/

/-- MMA.e4m3 (R232, R234). -/
def execMmaE4m3 (acc : BitVec 3) (mode : BitVec 2) (a b : BitVec 5) (la : BitVec 4) (s : State) : Outcome :=
  runMma s acc mode a b la 0
/-- MMA.e5m2. -/
def execMmaE5m2 (acc : BitVec 3) (mode : BitVec 2) (a b : BitVec 5) (la : BitVec 4) (s : State) : Outcome :=
  runMma s acc mode a b la 1
/-- MMA.e4m3e5m2. -/
def execMmaE4m3e5m2 (acc : BitVec 3) (mode : BitVec 2) (a b : BitVec 5) (la : BitVec 4) (s : State) : Outcome :=
  runMma s acc mode a b la 2
/-- MMA.e5m2e4m3. -/
def execMmaE5m2e4m3 (acc : BitVec 3) (mode : BitVec 2) (a b : BitVec 5) (la : BitVec 4) (s : State) : Outcome :=
  runMma s acc mode a b la 3
/-- MMA.bf16. -/
def execMmaBf16 (acc : BitVec 3) (mode : BitVec 2) (a b : BitVec 5) (la : BitVec 4) (s : State) : Outcome :=
  runMma s acc mode a b la 4
/-- MMA.f16. -/
def execMmaF16 (acc : BitVec 3) (mode : BitVec 2) (a b : BitVec 5) (la : BitVec 4) (s : State) : Outcome :=
  runMma s acc mode a b la 5
/-- MMA.i8. -/
def execMmaI8 (acc : BitVec 3) (mode : BitVec 2) (a b : BitVec 5) (la : BitVec 4) (s : State) : Outcome :=
  runMma s acc mode a b la 6
/-- MMA.mint (R233). -/
def execMmaMint (acc : BitVec 3) (mode : BitVec 2) (a b : BitVec 5) (la : BitVec 4) (s : State) : Outcome :=
  runMint s acc mode a b la

/-- MACQ acc, fp (R229). -/
def execMacqFp (acc : BitVec 3) (s : State) : Outcome := runMacq s acc false
/-- MACQ acc, int. -/
def execMacqInt (acc : BitVec 3) (s : State) : Outcome := runMacq s acc true

/-- MREL: the holder releases the tile; its contents stay (R229). -/
def execMrel (acc : BitVec 3) (s : State) : Outcome :=
  runTile s acc (fun th t => (th, { t with holder := none }))

/-- MZERO (R229). -/
def execMzero (acc : BitVec 3) (s : State) : Outcome :=
  runTile s acc (fun th t => (th, { t with elems := 0, clamp := 0 }))

/-- MCFG (R241): never a shadow. -/
def execMcfg (a : BitVec 5) (s : State) : Outcome :=
  runState s (fun th =>
    let v := th.getX a
    if v.extractLsb' 3 61 ≠ 0 then .error { cause := .reservedField, val := th.pc }
    else .ok (s.putThread s.cur ((({ th with mxcfg := v }).retire s.cycle).endWindow)))

/-- The head of an MLD whose rows are data: the elements it writes and what it counts (R238). -/
def mldOp (acc : BitVec 3) (int : Bool) (code : Nat) (bytes : List Nat) : HeadOp :=
  let res := (chop (codeSize code) 1024 bytes).map (fun g => mldElem int code (ofBytes g))
  .mld acc (elemsOfList (res.map (·.1))) (countFlags (res.map (·.2)))

/-- MLD (R238, R239). -/
def execMld (acc : BitVec 3) (a b : BitVec 5) (la : BitVec 4) (s : State) : Outcome :=
  runCheck s (fun th =>
    match checkTileMove s th acc a b false with
    | .error e => .error e
    | .ok (t, code, rows, stop) =>
      let all := rows.flatten
      .ok ((touchRegion s th.core .load all).issueMatrix th acc la (regionL all)
        (stop.getD (mldOp acc t.int code (regionBytes s all))) (regionStarts all)))

/-- MST (R238, R239). -/
def execMst (acc : BitVec 3) (a b : BitVec 5) (la : BitVec 4) (s : State) : Outcome :=
  runCheck s (fun th =>
    match checkTileMove s th acc a b true with
    | .error e => .error e
    | .ok (t, code, rows, _) =>
      let z := codeSize code
      let res := (List.range 1024).map (fun n => mstElem t.int (mxSat th) (mxRm th) code (t.elem n))
      let lanes := ((List.range 1024).zip res).filterMap (fun p =>
        rowLane (rows.getD (p.1 / 32) []) p.1 (p.1 % 32) z (BitVec.ofNat 64 p.2.1))
      .ok ((touchRegion s th.core .store rows.flatten).issueMatrix th acc la (regionL rows.flatten)
        (.mst acc z lanes (countFlags (res.map (·.2)))) []))

/-- MRDV (R240): rows 2q and 2q + 1 into a vector register; its narrowing is counted when it retires (R231). -/
def execMrdv (acc : BitVec 3) (v : BitVec 4) (b : BitVec 5) (s : State) : Outcome :=
  runTile s acc (fun th t =>
    let q := ((th.getX b).extractLsb' 0 4).toNat
    let res := (List.range 64).map (fun l =>
      let c := t.elem (64 * q + l)
      if t.int then intForm 32 (mxSat th) c else fp32.narrow (mxRm th) (fp40.decode c))
    let th1 := th.setV v (vOfElems 32 (res.map (·.1)))
    ({ th1 with mxcnt := addCounts th.mxcnt (countFlags (res.map (·.2))) }, t))

/-- MWRV (R240): a vector register into rows 2q and 2q + 1. -/
def execMwrv (acc : BitVec 3) (v : BitVec 4) (b : BitVec 5) (s : State) : Outcome :=
  runTile s acc (fun th t =>
    let q := ((th.getX b).extractLsb' 0 4).toNat
    let src := elemsOf (th.getV v) 32
    let res := (List.range 64).map (fun l => mldElem t.int (if t.int then 5 else 0) (src.getD l 0))
    let elems := (List.range 1024).map (fun n =>
      if 64 * q ≤ n ∧ n < 64 * q + 64 then (res.getD (n - 64 * q) (0, 0)).1 else t.elem n)
    let clamp := if t.int then (List.range 1024).map (fun n =>
        if 64 * q ≤ n ∧ n < 64 * q + 64 then false else t.clamp.getLsbD n)
      else (List.range 1024).map (fun n => t.clamp.getLsbD n)
    ({ th with mxcnt := addCounts th.mxcnt (countFlags (res.map (·.2))) },
     { t with elems := elemsOfList elems, clamp := clampOfList clamp }))

/-- The flags that MXCNT's counters stand for (R242). -/
def mxFlags (c : Word) : BitVec 5 :=
  (if c.extractLsb' 0 16 = 0 then 0 else flagNV) ||| (if c.extractLsb' 16 16 = 0 then 0 else flagOF ||| flagNX)
    ||| (if c.extractLsb' 32 16 = 0 then 0 else flagUF) ||| (if c.extractLsb' 48 16 = 0 then 0 else flagNX)

/-- MFLG (R242): raises the counters' flags, and clears the counters, as asked; never a shadow. -/
def runMflg (s : State) (raises clears : Bool) : Outcome :=
  runState s (fun th =>
    match th.withFlags [(0, if raises then mxFlags th.mxcnt else 0)]
        (fun t => { t with mxcnt := if clears then 0 else t.mxcnt }) with
    | .error t => .error t
    | .ok th' => .ok (s.putThread s.cur ((th'.retire s.cycle).endWindow)))

/-- MFLG fold. -/
def execMflgFold (s : State) : Outcome := runMflg s true true
/-- MFLG clear. -/
def execMflgClear (s : State) : Outcome := runMflg s false true
/-- MFLG raise. -/
def execMflgRaise (s : State) : Outcome := runMflg s true false

/-! ### Completion -/

/-- Whether a thread's head is the oldest entry of its core's matrix queue (R93). -/
def queueFirst (s : State) (t : Nat) : Bool :=
  match s.thread t with
  | some th =>
    match th.head with
    | some h => !s.threads.any (fun p => p.1 != t && p.2.core == th.core
        && (p.2.head.map (fun g => g.op.inQueue && decide (g.since < h.since))).getD false)
    | none => false
  | none => false

/-- A head blocked at an operand word (R235): the word decides as for a load (R319); when it has become VALUE the
instruction is performed again whole. A SUSPENDED word waits for EVALUATION_START. -/
def completeCells (s : State) (t : Nat) (th : Thread) (h : Head) (pa : Nat) (ptr : Word) : State :=
  match loadTag s t (.dram pa) true ptr .again with
  | .error (some tr) => s.trapHead t tr 0
  | .error none => s
  | .ok (some s') => s'
  | .ok none => s.putThread t { th with pc := h.pc, redo := if h.next = h.pc + 4 then none else some h.next, head := none, window := none }

/-- The end of an MMA, MLD or MST that wrote its tile or stored it: MXCNT gains its counts as it retires (R231). -/
def Thread.completeMatrix (th : Thread) (cycle : Nat) (counts : Word) : Thread :=
  ({ th with mxcnt := addCounts th.mxcnt counts }).completeHead cycle

/-- MMA_COMPLETE (R236): the oldest entry of the matrix queue, an MMA, writes its tile. -/
def execMmaComplete (t : Nat) (s : State) : Outcome :=
  match s.thread t with
  | some th =>
    if !queueFirst s t then .next s else
    match th.head with
    | some { op := .mma acc elems clamp counts, .. } =>
      let c := s.core th.core
      .next ((s.putCore th.core (c.setTile acc { c.tile acc with elems := elems, clamp := clamp })).putThread t
        (th.completeMatrix s.cycle counts))
    | some h =>
      match h.op with
      | .cells _ pa ptr => .next (completeCells s t th h pa ptr)
      | .marked _ ptr => .next (s.trapHead t { cause := .uncorrectableData, val := ptr } h.retired)
      | _ => .next s
    | none => .next s
  | none => .next s

/-- MLD_MST_COMPLETE (R239): the oldest entry of the matrix queue, an MLD or MST, completes. -/
def execMldMstComplete (t : Nat) (s : State) : Outcome :=
  match s.thread t with
  | some th =>
    if !queueFirst s t then .next s else
    match th.head with
    | some { op := .mld acc elems counts, .. } =>
      let c := s.core th.core
      .next ((s.putCore th.core (c.setTile acc { c.tile acc with elems := elems, clamp := 0 })).putThread t
        (th.completeMatrix s.cycle counts))
    | some { op := .mst _ z lanes counts, retired := k, .. } =>
      if lanes.any (fun l => lineHeld s l.loc z) then .next s else
      match busyRow s th lanes with
      | some tr => .next (s.trapHead t tr (if tr.cause = .uncorrectableData then k else 0))
      | none =>
        let s1 := lanes.foldl (fun st l =>
          match storeTag st th.evalOf l.loc l.lpage l.ptr with
          | .ok keep => writeLoc st keep l.loc z l.data.toNat
          | .error _ => st) s
        .next ((acceptLanes s1 th.core lanes).putThread t (th.completeMatrix s.cycle counts))
    | some h =>
      match h.op with
      | .cells _ pa ptr => .next (completeCells s t th h pa ptr)
      | .marked _ ptr => .next (s.trapHead t { cause := .uncorrectableData, val := ptr } h.retired)
      | _ => .next s
    | none => .next s
  | none => .next s

end Sys2Proof.Machine
end

