-- ==== Sys2Proof/Machine/Vector.lean ====
section
/-!
DEFINITION. The vector engine (11_vector): the VFP, VINT, VCMP, VMOVE, VCVT, VRED and MASK groups and the scalar
floating-point group SFP. Every instruction here is short-class and may be a shadow.
-/
namespace Sys2Proof.Machine

/-- The width in bits of an element type (R61). -/
def tyWidth (ty : BitVec 4) : Nat :=
  match ty.toNat with
  | 0 => 32
  | 1 => 16
  | 2 => 16
  | 3 => 32
  | 4 => 16
  | _ => 8

/-- Whether a type is a floating-point one (R61). -/
def tyFloat (ty : BitVec 4) : Bool := decide (ty.toNat ≤ 2)

/-- The format of a floating-point type (R61). -/
def tyFmt (ty : BitVec 4) : Fmt :=
  match ty.toNat with
  | 1 => bf16
  | 2 => fp16
  | _ => fp32

/-- An element-wise instruction (R203): `elem` gives element i from A, B and D; an element that the mask turns off keeps
its value and raises nothing. -/
def runVec (s : State) (d a b : VReg) (mk : MReg) (w : Nat) (elem : Thread → Nat → Nat → Nat → FRes) : Outcome :=
  runThread s (fun th =>
    let m := th.getM mk
    let res := (List.range (2048 / w)).map (fun i =>
      let D := elemOf (th.getV d) w i
      if m.getLsbD i then elem th (elemOf (th.getV a) w i) (elemOf (th.getV b) w i) D else (D, 0))
    th.withFlags ((List.range (2048 / w)).zip (res.map (·.2))) (fun t => t.setV d (vOfElems w (res.map (·.1)))))

/-- A move (R211): `elem` gives element i from the thread and i; `every` when the mask does not disable. -/
def runMove (s : State) (d : VReg) (mk : MReg) (w : Nat) (every : Bool) (elem : Thread → Nat → Nat) : Outcome :=
  runThread s (fun th =>
    let m := th.getM mk
    .ok (th.setV d (vOfElems w ((List.range (2048 / w)).map (fun i =>
      if every || m.getLsbD i then elem th i else elemOf (th.getV d) w i)))))

/-- A comparison (R210): bits of disabled elements stay, bits N to 255 are zero. -/
def runCmp (s : State) (d : MReg) (a b : VReg) (mk : MReg) (w : Nat) (cond : Nat → Nat → Bool × BitVec 5) : Outcome :=
  runThread s (fun th =>
    let m := th.getM mk
    let old := th.getM d
    let res := (List.range (2048 / w)).map (fun i =>
      if m.getLsbD i then cond (elemOf (th.getV a) w i) (elemOf (th.getV b) w i) else (old.getLsbD i, 0))
    th.withFlags ((List.range (2048 / w)).zip (res.map (·.2))) (fun t => t.setM d (mOfBits (res.map (·.1)))))

/-- A conversion on 64 lanes (R212), from elements of sw bits to elements of dw bits. -/
def runCvt (s : State) (d a : VReg) (mk : MReg) (sw dw : Nat) (conv : BitVec 2 → Nat → FRes) : Outcome :=
  runThread s (fun th =>
    let m := th.getM mk
    let res := (List.range (2048 / dw)).map (fun i =>
      if i < 64 ∧ m.getLsbD i = true then conv th.frm (elemOf (th.getV a) sw i) else (elemOf (th.getV d) dw i, 0))
    th.withFlags ((List.range (2048 / dw)).zip (res.map (·.2))) (fun t => t.setV d (vOfElems dw (res.map (·.1)))))

/-- A scalar floating-point instruction on the low 32 bits of its operands (R218). -/
def runSfp (s : State) (d a b : Reg) (f : Thread → Nat → Nat → Nat → FRes) : Outcome :=
  runThread s (fun th =>
    let low := fun (r : Reg) => (th.getX r).toNat % 2 ^ 32
    let r := f th (low a) (low b) (low d)
    th.withFlags [(0, r.2)] (fun t => t.setX d (BitVec.ofNat 64 r.1)))

/-- A conversion of FCVTIF, FCVTFI and FCVTFF, of the whole of X[a] (R219). -/
def runFcvt (s : State) (d a : Reg) (f : Thread → Word → Word × BitVec 5) : Outcome :=
  runThread s (fun th =>
    let r := f th (th.getX a)
    th.withFlags [(0, r.2)] (fun t => t.setX d r.1))

/-! ### Element operations -/

/-- A sign operation of VABS and VNEG (R207): a NaN gives the canonical NaN. -/
def Fmt.signOp (F : Fmt) (op : Bool → Bool) (a : Nat) : FRes :=
  let v := F.decode a
  if v.isNaN then (F.canonicalNaN, if v.isSignalling then flagNV else 0)
  else
    let mag := a % 2 ^ (F.bits - 1)
    (F.sign (op (decide (2 ^ (F.bits - 1) ≤ a))) mag, 0)

/-- The class code of a pattern (R208). -/
def Fmt.classOf (F : Fmt) (a : Nat) : Nat :=
  match F.decode a with
  | .inf neg => if neg then 1 else 128
  | .nan sig => if sig then 256 else 512
  | .fin neg m _ =>
    if m = 0 then (if neg then 8 else 16)
    else if 2 ^ F.mbits ≤ m then (if neg then 2 else 64)
    else (if neg then 4 else 32)

/-- The NV flag of a comparison: of any NaN, or of a signalling one only (R210). -/
def cmpFlag (anyNaN : Bool) (x y : FVal) : BitVec 5 :=
  if (if anyNaN then x.isNaN || y.isNaN else x.isSignalling || y.isSignalling) then flagNV else 0

/-- A comparison of two floating-point elements (R210). -/
def Fmt.cmp (F : Fmt) (anyNaN : Bool) (test : Option Ordering → Bool) (a b : Nat) : Bool × BitVec 5 :=
  let x := F.decode a
  let y := F.decode b
  (test (x.compare y), cmpFlag anyNaN x y)

/-- A comparison of a type that may be either kind: `test` judges the order, none when an operand is a NaN; integers
compare signed. -/
def tyCmp (ty : BitVec 4) (anyNaN : Bool) (test : Option Ordering → Bool) (a b : Nat) : Bool × BitVec 5 :=
  if tyFloat ty then (tyFmt ty).cmp anyNaN test a b
  else (test (some (Ord.compare (signedOf (tyWidth ty) a) (signedOf (tyWidth ty) b))), 0)

/-- The shift amount of an element (R209). -/
def elemShift (w b : Nat) : Nat := b % w

/-- A shift right with copies of the sign (R209). -/
def elemSra (w a b : Nat) : Nat := (signedOf w a / 2 ^ elemShift w b % 2 ^ w).toNat

/-- The lowest enabled element below n. -/
def firstSet (m : MWord) (n : Nat) : Option Nat := (List.range n).find? (fun i => m.getLsbD i)

/-! ### Reductions and scans -/

/-- Canon (R213). -/
def canonElem (ty : BitVec 4) (x : Nat) : FRes :=
  let v := (tyFmt ty).decode x
  if tyFloat ty && v.isNaN then ((tyFmt ty).canonicalNaN, if v.isSignalling then flagNV else 0) else (x, 0)

/-- Comb (R213) with its flags. -/
def combElem (ty : BitVec 4) (op : Nat → Nat → FRes) : Option Nat → Option Nat → Option Nat × BitVec 5
  | none, none => (none, 0)
  | some x, none => let r := canonElem ty x; (some r.1, r.2)
  | none, some y => let r := canonElem ty y; (some r.1, r.2)
  | some x, some y => let r := op x y; (some r.1, r.2)

/-- One level of the tree. -/
def combLevel (ty : BitVec 4) (op : Nat → Nat → FRes) : List (Option Nat) → List (Option Nat) × BitVec 5
  | x :: y :: rest =>
    let r := combElem ty op x y
    let q := combLevel ty op rest
    (r.1 :: q.1, r.2 ||| q.2)
  | l => (l, 0)

/-- n levels of the tree. -/
def combTree (ty : BitVec 4) (op : Nat → Nat → FRes) : Nat → List (Option Nat) → List (Option Nat) × BitVec 5
  | 0, l => (l, 0)
  | n + 1, l =>
    let r := combLevel ty op l
    let q := combTree ty op n r.1
    (q.1, r.2 ||| q.2)

/-- A reduction (R213): `empty` is what element 0 gets when no element is enabled. -/
def runReduce (s : State) (d a : VReg) (mk : MReg) (ty : BitVec 4) (op : Thread → Nat → Nat → FRes) (empty : Nat) : Outcome :=
  runThread s (fun th =>
    let w := tyWidth ty
    let n := 2048 / w
    let m := th.getM mk
    let leaves := (List.range n).map (fun i => if m.getLsbD i then some (elemOf (th.getV a) w i) else none)
    let r := combTree ty (op th) (Nat.log2 n) leaves
    let v := ((r.1.head?).join).getD empty
    th.withFlags [(0, r.2)] (fun t =>
      t.setV d (vOfElems w (v :: (elemsOf (th.getV d) w).drop 1))))

/-- The sum of two elements (R213). -/
def sumElem (ty : BitVec 4) (frm : BitVec 2) (x y : Nat) : FRes :=
  if tyFloat ty then (tyFmt ty).add frm x y else ((x + y) % 2 ^ tyWidth ty, 0)

/-- The greater or lesser of two elements (R213). -/
def extremeElem (ty : BitVec 4) (wantMax : Bool) (x y : Nat) : FRes :=
  if tyFloat ty then (tyFmt ty).minMax wantMax x y
  else
    let less := decide (signedOf (tyWidth ty) x < signedOf (tyWidth ty) y)
    (if less == wantMax then y else x, 0)

/-- What VRMAX and VRMIN give when no element is enabled (R213). -/
def extremeEmpty (ty : BitVec 4) (wantMax : Bool) : Nat :=
  if tyFloat ty then (tyFmt ty).infinity wantMax
  else if wantMax then 2 ^ (tyWidth ty - 1) else 2 ^ (tyWidth ty - 1) - 1

/-- VSCAN's steps (R214): the running value, the new elements and the flags by step, from a list of (index, enabled, A,
old D). -/
def scanSteps (ty : BitVec 4) (frm : BitVec 2) : Option Nat → List (Nat × Bool × Nat × Nat) → List Nat × List (Nat × BitVec 5)
  | _, [] => ([], [])
  | run, (i, on, a, old) :: rest =>
    if on then
      let r := match run with
        | none => canonElem ty a
        | some x => sumElem ty frm x a
      let q := scanSteps ty frm (some r.1) rest
      (r.1 :: q.1, (i, r.2) :: q.2)
    else
      let q := scanSteps ty frm run rest
      (old :: q.1, q.2)

/-- Whether an element ranks above another (R215): NaNs below every number. -/
def ranksAbove (ty : BitVec 4) (x y : Nat) : Bool :=
  if tyFloat ty then
    let a := (tyFmt ty).decode x
    let b := (tyFmt ty).decode y
    if a.isNaN then false else if b.isNaN then true else a.compare b == some .gt
  else decide (signedOf (tyWidth ty) y < signedOf (tyWidth ty) x)

/-- Inserts an index after those that rank at or above it. -/
def insertRank (ty : BitVec 4) (p : Nat × Nat) : List (Nat × Nat) → List (Nat × Nat)
  | [] => [p]
  | q :: rest => if ranksAbove ty p.2 q.2 then p :: q :: rest else q :: insertRank ty p rest

/-- The indices of the enabled elements in descending order (R215). -/
def rankOf (ty : BitVec 4) (l : List (Nat × Nat)) : List Nat :=
  (l.foldl (fun acc p => insertRank ty p acc) []).map (·.1)

/-! ### Conversions to integers without sign -/

/-- A conversion to an unsigned integer of n bits (R193, R219): a value that rounds below 0 gives 0 with OF and NX. -/
def toUnsigned (n : Nat) (mode : BitVec 2) : FVal → FRes
  | .nan _ => (0, flagNV)
  | .inf neg => (if neg then 0 else 2 ^ n - 1, flagOF ||| flagNX)
  | .fin neg m e =>
    let r := roundAt mode neg m e false 0
    if neg then (if 0 < r.1 then (0, flagOF ||| flagNX) else (0, if r.2 then flagNX else 0))
    else if 2 ^ n - 1 < r.1 then (2 ^ n - 1, flagOF ||| flagNX)
    else (r.1, if r.2 then flagNX else 0)

/-! ### VFP (R206 to R208) -/

/-- VADD: Round(A + B). -/
def execVadd (d a b : BitVec 4) (mk : BitVec 3) (ty : BitVec 4) (s : State) : Outcome :=
  runVec s d a b mk (tyWidth ty) (fun th A B _ => (tyFmt ty).add th.frm A B)

/-- VSUB: Round(A − B). -/
def execVsub (d a b : BitVec 4) (mk : BitVec 3) (ty : BitVec 4) (s : State) : Outcome :=
  runVec s d a b mk (tyWidth ty) (fun th A B _ => (tyFmt ty).sub th.frm A B)

/-- VMUL: Round(A × B). -/
def execVmul (d a b : BitVec 4) (mk : BitVec 3) (ty : BitVec 4) (s : State) : Outcome :=
  runVec s d a b mk (tyWidth ty) (fun th A B _ => (tyFmt ty).mul th.frm A B)

/-- VDIV: Round(A / B). -/
def execVdiv (d a b : BitVec 4) (mk : BitVec 3) (ty : BitVec 4) (s : State) : Outcome :=
  runVec s d a b mk (tyWidth ty) (fun th A B _ => (tyFmt ty).div th.frm A B)

/-- VFMA: Round(A × B + D). -/
def execVfma (d a b : BitVec 4) (mk : BitVec 3) (ty : BitVec 4) (s : State) : Outcome :=
  runVec s d a b mk (tyWidth ty) (fun th A B D => (tyFmt ty).fma th.frm false false A B D)

/-- VFMS: Round(A × B − D). -/
def execVfms (d a b : BitVec 4) (mk : BitVec 3) (ty : BitVec 4) (s : State) : Outcome :=
  runVec s d a b mk (tyWidth ty) (fun th A B D => (tyFmt ty).fma th.frm false true A B D)

/-- VFNMA: Round(D − A × B). -/
def execVfnma (d a b : BitVec 4) (mk : BitVec 3) (ty : BitVec 4) (s : State) : Outcome :=
  runVec s d a b mk (tyWidth ty) (fun th A B D => (tyFmt ty).fma th.frm true false A B D)

/-- VMIN: MinF(A, B). -/
def execVmin (d a b : BitVec 4) (mk : BitVec 3) (ty : BitVec 4) (s : State) : Outcome :=
  runVec s d a b mk (tyWidth ty) (fun _ A B _ => (tyFmt ty).minMax false A B)

/-- VMAX: MaxF(A, B). -/
def execVmax (d a b : BitVec 4) (mk : BitVec 3) (ty : BitVec 4) (s : State) : Outcome :=
  runVec s d a b mk (tyWidth ty) (fun _ A B _ => (tyFmt ty).minMax true A B)

/-- VABS: the sign cleared. -/
def execVabs (d a : BitVec 4) (mk : BitVec 3) (ty : BitVec 4) (s : State) : Outcome :=
  runVec s d a a mk (tyWidth ty) (fun _ A _ _ => (tyFmt ty).signOp (fun _ => false) A)

/-- VNEG: the sign inverted. -/
def execVneg (d a : BitVec 4) (mk : BitVec 3) (ty : BitVec 4) (s : State) : Outcome :=
  runVec s d a a mk (tyWidth ty) (fun _ A _ _ => (tyFmt ty).signOp (fun n => !n) A)

/-- VSQRT. -/
def execVsqrt (d a : BitVec 4) (mk : BitVec 3) (ty : BitVec 4) (s : State) : Outcome :=
  runVec s d a a mk (tyWidth ty) (fun th A _ _ => (tyFmt ty).sqrt th.frm A)

/-- VRSQ, to nearest even. -/
def execVrsq (d a : BitVec 4) (mk : BitVec 3) (ty : BitVec 4) (s : State) : Outcome :=
  runVec s d a a mk (tyWidth ty) (fun _ A _ _ => (tyFmt ty).rsq A)

/-- VRCP, to nearest even. -/
def execVrcp (d a : BitVec 4) (mk : BitVec 3) (ty : BitVec 4) (s : State) : Outcome :=
  runVec s d a a mk (tyWidth ty) (fun _ A _ _ => (tyFmt ty).rcp A)

/-- VEXP2, to nearest even. -/
def execVexp2 (d a : BitVec 4) (mk : BitVec 3) (ty : BitVec 4) (s : State) : Outcome :=
  runVec s d a a mk (tyWidth ty) (fun _ A _ _ => (tyFmt ty).exp2 A)

/-- VLOG2, to nearest even. -/
def execVlog2 (d a : BitVec 4) (mk : BitVec 3) (ty : BitVec 4) (s : State) : Outcome :=
  runVec s d a a mk (tyWidth ty) (fun _ A _ _ => (tyFmt ty).log2 A)

/-- VCLASS. -/
def execVclass (d a : BitVec 4) (mk : BitVec 3) (ty : BitVec 4) (s : State) : Outcome :=
  runVec s d a a mk (tyWidth ty) (fun _ A _ _ => ((tyFmt ty).classOf A, 0))

/-! ### VINT (R209) -/

/-- VIADD. -/
def execViadd (d a b : BitVec 4) (mk : BitVec 3) (ty : BitVec 4) (s : State) : Outcome :=
  runVec s d a b mk (tyWidth ty) (fun _ A B _ => ((A + B) % 2 ^ tyWidth ty, 0))

/-- VISUB. -/
def execVisub (d a b : BitVec 4) (mk : BitVec 3) (ty : BitVec 4) (s : State) : Outcome :=
  runVec s d a b mk (tyWidth ty) (fun _ A B _ => ((2 ^ tyWidth ty + A - B) % 2 ^ tyWidth ty, 0))

/-- VIMUL: the low bits of A × B. -/
def execVimul (d a b : BitVec 4) (mk : BitVec 3) (ty : BitVec 4) (s : State) : Outcome :=
  runVec s d a b mk (tyWidth ty) (fun _ A B _ => (A * B % 2 ^ tyWidth ty, 0))

/-- VAND. -/
def execVand (d a b : BitVec 4) (mk : BitVec 3) (ty : BitVec 4) (s : State) : Outcome :=
  runVec s d a b mk (tyWidth ty) (fun _ A B _ => (A &&& B, 0))

/-- VOR. -/
def execVor (d a b : BitVec 4) (mk : BitVec 3) (ty : BitVec 4) (s : State) : Outcome :=
  runVec s d a b mk (tyWidth ty) (fun _ A B _ => (A ||| B, 0))

/-- VXOR. -/
def execVxor (d a b : BitVec 4) (mk : BitVec 3) (ty : BitVec 4) (s : State) : Outcome :=
  runVec s d a b mk (tyWidth ty) (fun _ A B _ => (A ^^^ B, 0))

/-- VSLL. -/
def execVsll (d a b : BitVec 4) (mk : BitVec 3) (ty : BitVec 4) (s : State) : Outcome :=
  runVec s d a b mk (tyWidth ty) (fun _ A B _ => (A * 2 ^ elemShift (tyWidth ty) B % 2 ^ tyWidth ty, 0))

/-- VSRL. -/
def execVsrl (d a b : BitVec 4) (mk : BitVec 3) (ty : BitVec 4) (s : State) : Outcome :=
  runVec s d a b mk (tyWidth ty) (fun _ A B _ => (A / 2 ^ elemShift (tyWidth ty) B, 0))

/-- VSRA. -/
def execVsra (d a b : BitVec 4) (mk : BitVec 3) (ty : BitVec 4) (s : State) : Outcome :=
  runVec s d a b mk (tyWidth ty) (fun _ A B _ => (elemSra (tyWidth ty) A B, 0))

/-- VIMIN: signed minimum. -/
def execVimin (d a b : BitVec 4) (mk : BitVec 3) (ty : BitVec 4) (s : State) : Outcome :=
  runVec s d a b mk (tyWidth ty) (fun _ A B _ => (if signedOf (tyWidth ty) B < signedOf (tyWidth ty) A then B else A, 0))

/-- VIMAX: signed maximum. -/
def execVimax (d a b : BitVec 4) (mk : BitVec 3) (ty : BitVec 4) (s : State) : Outcome :=
  runVec s d a b mk (tyWidth ty) (fun _ A B _ => (if signedOf (tyWidth ty) A < signedOf (tyWidth ty) B then B else A, 0))

/-- VIMINN: unsigned minimum. -/
def execViminn (d a b : BitVec 4) (mk : BitVec 3) (ty : BitVec 4) (s : State) : Outcome :=
  runVec s d a b mk (tyWidth ty) (fun _ A B _ => (min A B, 0))

/-- VIMAXN: unsigned maximum. -/
def execVimaxn (d a b : BitVec 4) (mk : BitVec 3) (ty : BitVec 4) (s : State) : Outcome :=
  runVec s d a b mk (tyWidth ty) (fun _ A B _ => (max A B, 0))

/-! ### VCMP (R210) -/

/-- VCMP.eq. -/
def execVcmpEq (d : BitVec 3) (a b : BitVec 4) (mk : BitVec 3) (ty : BitVec 4) (s : State) : Outcome :=
  runCmp s d a b mk (tyWidth ty) (tyCmp ty false (fun o => o == some .eq))

/-- VCMP.ne: not eq. -/
def execVcmpNe (d : BitVec 3) (a b : BitVec 4) (mk : BitVec 3) (ty : BitVec 4) (s : State) : Outcome :=
  runCmp s d a b mk (tyWidth ty) (tyCmp ty false (fun o => o != some .eq))

/-- VCMP.lt. -/
def execVcmpLt (d : BitVec 3) (a b : BitVec 4) (mk : BitVec 3) (ty : BitVec 4) (s : State) : Outcome :=
  runCmp s d a b mk (tyWidth ty) (tyCmp ty true (fun o => o == some .lt))

/-- VCMP.le. -/
def execVcmpLe (d : BitVec 3) (a b : BitVec 4) (mk : BitVec 3) (ty : BitVec 4) (s : State) : Outcome :=
  runCmp s d a b mk (tyWidth ty) (tyCmp ty true (fun o => o == some .lt || o == some .eq))

/-- VCMP.un. -/
def execVcmpUn (d : BitVec 3) (a b : BitVec 4) (mk : BitVec 3) (ty : BitVec 4) (s : State) : Outcome :=
  runCmp s d a b mk (tyWidth ty) (tyCmp ty false (fun o => o == none))

/-- VCMP.ltn: unsigned. -/
def execVcmpLtn (d : BitVec 3) (a b : BitVec 4) (mk : BitVec 3) (ty : BitVec 4) (s : State) : Outcome :=
  runCmp s d a b mk (tyWidth ty) (fun A B => (decide (A < B), 0))

/-- VCMP.len: unsigned. -/
def execVcmpLen (d : BitVec 3) (a b : BitVec 4) (mk : BitVec 3) (ty : BitVec 4) (s : State) : Outcome :=
  runCmp s d a b mk (tyWidth ty) (fun A B => (decide (A ≤ B), 0))

/-! ### VMOVE (R211) -/

/-- VSEL: the mask selects and does not disable. -/
def execVsel (d a b : BitVec 4) (mk : BitVec 3) (ty : BitVec 4) (s : State) : Outcome :=
  runMove s d mk (tyWidth ty) true (fun th i =>
    if (th.getM mk).getLsbD i then elemOf (th.getV a) (tyWidth ty) i else elemOf (th.getV b) (tyWidth ty) i)

/-- VPERM. -/
def execVperm (d a b : BitVec 4) (mk : BitVec 3) (ty : BitVec 4) (s : State) : Outcome :=
  runMove s d mk (tyWidth ty) false (fun th i =>
    elemOf (th.getV a) (tyWidth ty) (elemOf (th.getV b) (tyWidth ty) i % (2048 / tyWidth ty)))

/-- VBCAST. -/
def execVbcast (d : BitVec 4) (x : BitVec 5) (mk : BitVec 3) (ty : BitVec 4) (s : State) : Outcome :=
  runMove s d mk (tyWidth ty) false (fun th _ => (th.getX x).toNat % 2 ^ tyWidth ty)

/-- VEXT: the lowest enabled element, sign-extended for integer types; 0 when none is enabled. -/
def execVext (x : BitVec 5) (b : BitVec 4) (mk : BitVec 3) (ty : BitVec 4) (s : State) : Outcome :=
  runThread s (fun th =>
    let w := tyWidth ty
    .ok (th.setX x (match firstSet (th.getM mk) (2048 / w) with
      | none => 0
      | some i => extend (w / 8) (!tyFloat ty) (elemOf (th.getV b) w i))))

/-- VINS: only the lowest enabled element. -/
def execVins (d : BitVec 4) (x : BitVec 5) (mk : BitVec 3) (ty : BitVec 4) (s : State) : Outcome :=
  runMove s d mk (tyWidth ty) true (fun th i =>
    if firstSet (th.getM mk) (2048 / tyWidth ty) = some i then (th.getX x).toNat % 2 ^ tyWidth ty
    else elemOf (th.getV d) (tyWidth ty) i)

/-- VIOTA. -/
def execViota (d : BitVec 4) (mk : BitVec 3) (ty : BitVec 4) (s : State) : Outcome :=
  runMove s d mk (tyWidth ty) false (fun _ i => i % 2 ^ tyWidth ty)

/-- VMV. -/
def execVmv (d a : BitVec 4) (mk : BitVec 3) (ty : BitVec 4) (s : State) : Outcome :=
  runMove s d mk (tyWidth ty) false (fun th i => elemOf (th.getV a) (tyWidth ty) i)

/-- VSLIDE: by a signed count of elements. -/
def execVslide (d a n : BitVec 4) (mk : BitVec 3) (ty : BitVec 4) (s : State) : Outcome :=
  runMove s d mk (tyWidth ty) false (fun th i =>
    let j : Int := i - n.toInt
    if 0 ≤ j ∧ j < (2048 / tyWidth ty : Nat) then elemOf (th.getV a) (tyWidth ty) j.toNat else 0)

/-! ### VCVT (R212) -/

/-- VCVT.f32.bf16. -/
def execVcvtF32Bf16 (d a : BitVec 4) (mk : BitVec 3) (s : State) : Outcome :=
  runCvt s d a mk 32 16 (fun frm A => bf16.narrow frm (fp32.decode A))

/-- VCVT.f32.f16. -/
def execVcvtF32F16 (d a : BitVec 4) (mk : BitVec 3) (s : State) : Outcome :=
  runCvt s d a mk 32 16 (fun frm A => fp16.narrow frm (fp32.decode A))

/-- VCVT.f32.e4m3. -/
def execVcvtF32E4m3 (d a : BitVec 4) (mk : BitVec 3) (s : State) : Outcome :=
  runCvt s d a mk 32 8 (fun frm A => e4m3.narrow frm (fp32.decode A))

/-- VCVT.f32.e5m2. -/
def execVcvtF32E5m2 (d a : BitVec 4) (mk : BitVec 3) (s : State) : Outcome :=
  runCvt s d a mk 32 8 (fun frm A => e5m2.narrow frm (fp32.decode A))

/-- VCVT.bf16.f32. -/
def execVcvtBf16F32 (d a : BitVec 4) (mk : BitVec 3) (s : State) : Outcome :=
  runCvt s d a mk 16 32 (fun _ A => fp32.widen (bf16.decode A))

/-- VCVT.f16.f32. -/
def execVcvtF16F32 (d a : BitVec 4) (mk : BitVec 3) (s : State) : Outcome :=
  runCvt s d a mk 16 32 (fun _ A => fp32.widen (fp16.decode A))

/-- VCVT.e4m3.f32. -/
def execVcvtE4m3F32 (d a : BitVec 4) (mk : BitVec 3) (s : State) : Outcome :=
  runCvt s d a mk 8 32 (fun _ A => fp32.widen (e4m3.decode A))

/-- VCVT.e5m2.f32. -/
def execVcvtE5m2F32 (d a : BitVec 4) (mk : BitVec 3) (s : State) : Outcome :=
  runCvt s d a mk 8 32 (fun _ A => fp32.widen (e5m2.decode A))

/-- VCVT.f32.i32. -/
def execVcvtF32I32 (d a : BitVec 4) (mk : BitVec 3) (s : State) : Outcome :=
  runCvt s d a mk 32 32 (fun frm A => toInteger 32 frm (fp32.decode A))

/-- VCVT.i32.f32. -/
def execVcvtI32F32 (d a : BitVec 4) (mk : BitVec 3) (s : State) : Outcome :=
  runCvt s d a mk 32 32 (fun frm A => fp32.narrow frm (intVal 32 A))

/-- VCVT.i8.i32: sign extension. -/
def execVcvtI8I32 (d a : BitVec 4) (mk : BitVec 3) (s : State) : Outcome :=
  runCvt s d a mk 8 32 (fun _ A => ((signedOf 8 A % 2 ^ 32).toNat, 0))

/-- VCVT.i32.i8. -/
def execVcvtI32I8 (d a : BitVec 4) (mk : BitVec 3) (s : State) : Outcome :=
  runCvt s d a mk 32 8 (fun _ A => satInt 8 (signedOf 32 A))

/-! ### VRED (R213 to R216) -/

/-- VRSUM. -/
def execVrsum (d a : BitVec 4) (mk : BitVec 3) (ty : BitVec 4) (s : State) : Outcome :=
  runReduce s d a mk ty (fun th x y => sumElem ty th.frm x y) 0

/-- VRMAX. -/
def execVrmax (d a : BitVec 4) (mk : BitVec 3) (ty : BitVec 4) (s : State) : Outcome :=
  runReduce s d a mk ty (fun _ x y => extremeElem ty true x y) (extremeEmpty ty true)

/-- VRMIN. -/
def execVrmin (d a : BitVec 4) (mk : BitVec 3) (ty : BitVec 4) (s : State) : Outcome :=
  runReduce s d a mk ty (fun _ x y => extremeElem ty false x y) (extremeEmpty ty false)

/-- VSCAN. -/
def execVscan (d a : BitVec 4) (mk : BitVec 3) (ty : BitVec 4) (s : State) : Outcome :=
  runThread s (fun th =>
    let w := tyWidth ty
    let m := th.getM mk
    let r := scanSteps ty th.frm none ((List.range (2048 / w)).map (fun i =>
      (i, m.getLsbD i, elemOf (th.getV a) w i, elemOf (th.getV d) w i)))
    th.withFlags r.2 (fun t => t.setV d (vOfElems w r.1)))

/-- VTOPK. -/
def execVtopk (d a : BitVec 4) (mk : BitVec 3) (ty : BitVec 4) (s : State) : Outcome :=
  runThread s (fun th =>
    let w := tyWidth ty
    let m := th.getM mk
    let on := ((List.range (2048 / w)).filter (fun i => m.getLsbD i)).map (fun i => (i, elemOf (th.getV a) w i))
    let fl := if tyFloat ty && on.any (fun p => ((tyFmt ty).decode p.2).isSignalling) then flagNV else 0
    let ranks := rankOf ty on
    th.withFlags [(0, fl)] (fun t =>
      t.setV d (vOfElems w (ranks ++ List.replicate (2048 / w - ranks.length) (2 ^ w - 1)))))

/-! ### MASK (R217) -/

/-- MAND. -/
def execMand (d a b : BitVec 3) (s : State) : Outcome :=
  runThread s (fun th => .ok (th.setM d (th.getM a &&& th.getM b)))

/-- MOR. -/
def execMor (d a b : BitVec 3) (s : State) : Outcome :=
  runThread s (fun th => .ok (th.setM d (th.getM a ||| th.getM b)))

/-- MXOR. -/
def execMxor (d a b : BitVec 3) (s : State) : Outcome :=
  runThread s (fun th => .ok (th.setM d (th.getM a ^^^ th.getM b)))

/-- MNOT. -/
def execMnot (d a : BitVec 3) (s : State) : Outcome :=
  runThread s (fun th => .ok (th.setM d (~~~ th.getM a)))

/-- MPOP. -/
def execMpop (d : BitVec 5) (b : BitVec 3) (ty : BitVec 4) (s : State) : Outcome :=
  runThread s (fun th =>
    .ok (th.setX d (BitVec.ofNat 64 ((List.range (2048 / tyWidth ty)).filter (fun i => (th.getM b).getLsbD i)).length)))

/-- MFIRST. -/
def execMfirst (d : BitVec 5) (b : BitVec 3) (ty : BitVec 4) (s : State) : Outcome :=
  runThread s (fun th =>
    .ok (th.setX d (match firstSet (th.getM b) (2048 / tyWidth ty) with
      | some i => BitVec.ofNat 64 i
      | none => BitVec.allOnes 64)))

/-- MSET: bits 0 to k − 1 set. -/
def execMset (d : BitVec 3) (kl kh : BitVec 4) (s : State) : Outcome :=
  runThread s (fun th =>
    .ok (th.setM d (BitVec.ofNat 256 (2 ^ (kh.toNat * 16 + kl.toNat) - 1))))

/-! ### SFP (R218, R219) -/

/-- FADD. -/
def execFadd (d a b : BitVec 5) (s : State) : Outcome :=
  runSfp s d a b (fun th A B _ => fp32.add th.frm A B)

/-- FSUB. -/
def execFsub (d a b : BitVec 5) (s : State) : Outcome :=
  runSfp s d a b (fun th A B _ => fp32.sub th.frm A B)

/-- FMUL. -/
def execFmul (d a b : BitVec 5) (s : State) : Outcome :=
  runSfp s d a b (fun th A B _ => fp32.mul th.frm A B)

/-- FDIV. -/
def execFdiv (d a b : BitVec 5) (s : State) : Outcome :=
  runSfp s d a b (fun th A B _ => fp32.div th.frm A B)

/-- FSQRT. -/
def execFsqrt (d a : BitVec 5) (s : State) : Outcome :=
  runSfp s d a a (fun th A _ _ => fp32.sqrt th.frm A)

/-- FFMA: Round32(A × B + D). -/
def execFfma (d a b : BitVec 5) (s : State) : Outcome :=
  runSfp s d a b (fun th A B D => fp32.fma th.frm false false A B D)

/-- FMIN. -/
def execFmin (d a b : BitVec 5) (s : State) : Outcome :=
  runSfp s d a b (fun _ A B _ => fp32.minMax false A B)

/-- FMAX. -/
def execFmax (d a b : BitVec 5) (s : State) : Outcome :=
  runSfp s d a b (fun _ A B _ => fp32.minMax true A B)

/-- FEQ. -/
def execFeq (d a b : BitVec 5) (s : State) : Outcome :=
  runSfp s d a b (fun _ A B _ => let r := fp32.cmp false (fun o => o == some .eq) A B; (r.1.toNat, r.2))

/-- FLT. -/
def execFlt (d a b : BitVec 5) (s : State) : Outcome :=
  runSfp s d a b (fun _ A B _ => let r := fp32.cmp true (fun o => o == some .lt) A B; (r.1.toNat, r.2))

/-- FLE. -/
def execFle (d a b : BitVec 5) (s : State) : Outcome :=
  runSfp s d a b (fun _ A B _ => let r := fp32.cmp true (fun o => o == some .lt || o == some .eq) A B; (r.1.toNat, r.2))

/-- FCLASS. -/
def execFclass (d a : BitVec 5) (s : State) : Outcome :=
  runSfp s d a a (fun _ A _ _ => (fp32.classOf A, 0))

/-- FEXP2. -/
def execFexp2 (d a : BitVec 5) (s : State) : Outcome :=
  runSfp s d a a (fun _ A _ _ => fp32.exp2 A)

/-- FLOG2. -/
def execFlog2 (d a : BitVec 5) (s : State) : Outcome :=
  runSfp s d a a (fun _ A _ _ => fp32.log2 A)

/-- FCVTIF: an integer to FP32. -/
def execFcvtif (d a code : BitVec 5) (s : State) : Outcome :=
  runFcvt s d a (fun th v =>
    let src : FVal := match code.toNat with
      | 0 => intVal 32 (v.toNat % 2 ^ 32)
      | 1 => intVal 64 v.toNat
      | 2 => .ofNat (v.toNat % 2 ^ 32)
      | _ => .ofNat v.toNat
    let r := fp32.narrow th.frm src
    (BitVec.ofNat 64 r.1, r.2))

/-- FCVTFI: FP32 to an integer. -/
def execFcvtfi (d a code : BitVec 5) (s : State) : Outcome :=
  runFcvt s d a (fun th v =>
    let x := fp32.decode (v.toNat % 2 ^ 32)
    match code.toNat with
    | 0 => let r := toInteger 32 th.frm x; (sext32 (BitVec.ofNat 64 r.1), r.2)
    | 1 => let r := toInteger 64 th.frm x; (BitVec.ofNat 64 r.1, r.2)
    | 2 => let r := toUnsigned 32 th.frm x; (BitVec.ofNat 64 r.1, r.2)
    | _ => let r := toUnsigned 64 th.frm x; (BitVec.ofNat 64 r.1, r.2))

/-- FCVTFF: between floating formats. -/
def execFcvtff (d a code : BitVec 5) (s : State) : Outcome :=
  runFcvt s d a (fun th v =>
    let x := v.toNat % 2 ^ 32
    let r := match code.toNat with
      | 0 => bf16.narrow th.frm (fp32.decode x)
      | 1 => fp16.narrow th.frm (fp32.decode x)
      | 2 => e4m3.narrow th.frm (fp32.decode x)
      | 3 => e5m2.narrow th.frm (fp32.decode x)
      | 4 => fp32.widen (bf16.decode (x % 2 ^ 16))
      | 5 => fp32.widen (fp16.decode (x % 2 ^ 16))
      | 6 => fp32.widen (e4m3.decode (x % 2 ^ 8))
      | _ => fp32.widen (e5m2.decode (x % 2 ^ 8))
    (BitVec.ofNat 64 r.1, r.2))

end Sys2Proof.Machine
end

