-- ==== Sys2Proof/Machine/Dispatch.lean ====
section
/-!
DEFINITION. The meaning of every instruction and event, one arm per constructor.
-/
namespace Sys2Proof.Machine

def exec (i : Instr) (s : State) : Host.Outcome State Fault Refusal :=
  match i with
  | .instructionFetch t => Sys2Proof.Machine.execInstructionFetch t s
  | .trapEntry t => Sys2Proof.Machine.execTrapEntry t s
  | .trappingPeriodEnd t => Sys2Proof.Machine.execTrappingPeriodEnd t s
  | .loadDataReturn t => Sys2Proof.Machine.execLoadDataReturn t s
  | .storeAccept t => Sys2Proof.Machine.execStoreAccept t s
  | .divideComplete t => Sys2Proof.Machine.execDivideComplete t s
  | .vectorAccessComplete t => Sys2Proof.Machine.execVectorAccessComplete t s
  | .mmaComplete t => Sys2Proof.Machine.execMmaComplete t s
  | .mldMstComplete t => Sys2Proof.Machine.execMldMstComplete t s
  | .pageTableWalk t va kind => Sys2Proof.Machine.execPageTableWalk t va kind s
  | .rotationBoundary => Sys2Proof.Machine.execRotationBoundary s
  | .stealRequest core => Sys2Proof.Machine.execStealRequest core s
  | .starvationPreemption core => Sys2Proof.Machine.execStarvationPreemption core s
  | .preemptionSave t => Sys2Proof.Machine.execPreemptionSave t s
  | .watchdogExpiry t => Sys2Proof.Machine.execWatchdogExpiry t s
  | .datapathCheckRetirement t => Sys2Proof.Machine.execDatapathCheckRetirement t s
  | .debugStep t => Sys2Proof.Machine.execDebugStep t s
  | .meetWindowEnd bank => Sys2Proof.Machine.execMeetWindowEnd bank s
  | .meetEntryFree bank => Sys2Proof.Machine.execMeetEntryFree bank s
  | .bankModeChange bank => Sys2Proof.Machine.execBankModeChange bank s
  | .copyRequestAccept cluster => Sys2Proof.Machine.execCopyRequestAccept cluster s
  | .copyTransfer cluster => Sys2Proof.Machine.execCopyTransfer cluster s
  | .copyLoopIteration cluster => Sys2Proof.Machine.execCopyLoopIteration cluster s
  | .heldMailboxPosting core => Sys2Proof.Machine.execHeldMailboxPosting core s
  | .barrierPhaseComplete cluster id => Sys2Proof.Machine.execBarrierPhaseComplete cluster id s
  | .launchCompletion lctx => Sys2Proof.Machine.execLaunchCompletion lctx s
  | .coherentLineRequest core line kind => Sys2Proof.Machine.execCoherentLineRequest core line kind s
  | .sliceAtomicPerform t => Sys2Proof.Machine.execSliceAtomicPerform t s
  | .smergePerform t => Sys2Proof.Machine.execSmergePerform t s
  | .stagedRecordAccept t => Sys2Proof.Machine.execStagedRecordAccept t s
  | .evaluationStart t => Sys2Proof.Machine.execEvaluationStart t s
  | .brokerRequest t => Sys2Proof.Machine.execBrokerRequest t s
  | .brokerFlagChange pool ptbase set => Sys2Proof.Machine.execBrokerFlagChange pool ptbase set s
  | .wfiTimeout t => Sys2Proof.Machine.execWfiTimeout t s
  | .waitmTimeout t => Sys2Proof.Machine.execWaitmTimeout t s
  | .helbenNotification handle => Sys2Proof.Machine.execHelbenNotification handle s
  | .doorbellRing cluster => Sys2Proof.Machine.execDoorbellRing cluster s
  | .hostBar2Read place n => Sys2Proof.Machine.execHostBar2Read place n s
  | .hostBar2Write va n data => Sys2Proof.Machine.execHostBar2Write va n data s
  | .hostBar0Write off n data => Sys2Proof.Machine.execHostBar0Write off n data s
  | .functionLevelReset => Sys2Proof.Machine.execFunctionLevelReset s
  | .conventionalReset => Sys2Proof.Machine.execConventionalReset s
  | .linkFlitReplay flit => Sys2Proof.Machine.execLinkFlitReplay flit s
  | .linkResetRetrain link => Sys2Proof.Machine.execLinkResetRetrain link s
  | .remoteRequest dev sup msg => Sys2Proof.Machine.execRemoteRequest dev sup msg s
  | .remoteResponseTimeout t => Sys2Proof.Machine.execRemoteResponseTimeout t s
  | .partitionHalt pid stop reason => Sys2Proof.Machine.execPartitionHalt pid stop reason s
  | .haltLimitExpiry pid => Sys2Proof.Machine.execHaltLimitExpiry pid s
  | .haltRemoteTimeout t => Sys2Proof.Machine.execHaltRemoteTimeout t s
  | .partitionSwap out load => Sys2Proof.Machine.execPartitionSwap out load s
  | .partitionRelease pid => Sys2Proof.Machine.execPartitionRelease pid s
  | .powerOnStartup c => Sys2Proof.Machine.execPowerOnStartup c s
  | .firmwareUpdate version verified => Sys2Proof.Machine.execFirmwareUpdate version verified s
  | .firmwareConfirm => Sys2Proof.Machine.execFirmwareConfirm s
  | .powerSense die watts level => Sys2Proof.Machine.execPowerSense die watts level s
  | .sensorSample r => Sys2Proof.Machine.execSensorSample r s
  | .dramScrub found => Sys2Proof.Machine.execDramScrub found s
  | .partRetirement part => Sys2Proof.Machine.execPartRetirement part s
  | .launchReplay lctx => Sys2Proof.Machine.execLaunchReplay lctx s
  | .controlRegisterWrite t => Sys2Proof.Machine.execControlRegisterWrite t s
  | .startupRetryCommand c => Sys2Proof.Machine.execStartupRetryCommand c s
  | .retirementLifted part => Sys2Proof.Machine.execRetirementLifted part s
  | .add d a b => Sys2Proof.Machine.execAdd d a b s
  | .sub d a b => Sys2Proof.Machine.execSub d a b s
  | .and d a b => Sys2Proof.Machine.execAnd d a b s
  | .or d a b => Sys2Proof.Machine.execOr d a b s
  | .xor d a b => Sys2Proof.Machine.execXor d a b s
  | .andn d a b => Sys2Proof.Machine.execAndn d a b s
  | .orn d a b => Sys2Proof.Machine.execOrn d a b s
  | .xnor d a b => Sys2Proof.Machine.execXnor d a b s
  | .sll d a b => Sys2Proof.Machine.execSll d a b s
  | .srl d a b => Sys2Proof.Machine.execSrl d a b s
  | .sra d a b => Sys2Proof.Machine.execSra d a b s
  | .rol d a b => Sys2Proof.Machine.execRol d a b s
  | .ror d a b => Sys2Proof.Machine.execRor d a b s
  | .min d a b => Sys2Proof.Machine.execMin d a b s
  | .max d a b => Sys2Proof.Machine.execMax d a b s
  | .minn d a b => Sys2Proof.Machine.execMinn d a b s
  | .maxn d a b => Sys2Proof.Machine.execMaxn d a b s
  | .slt d a b => Sys2Proof.Machine.execSlt d a b s
  | .sltn d a b => Sys2Proof.Machine.execSltn d a b s
  | .seq d a b => Sys2Proof.Machine.execSeq d a b s
  | .sne d a b => Sys2Proof.Machine.execSne d a b s
  | .addw d a b => Sys2Proof.Machine.execAddw d a b s
  | .subw d a b => Sys2Proof.Machine.execSubw d a b s
  | .sllw d a b => Sys2Proof.Machine.execSllw d a b s
  | .srlw d a b => Sys2Proof.Machine.execSrlw d a b s
  | .sraw d a b => Sys2Proof.Machine.execSraw d a b s
  | .mul d a b => Sys2Proof.Machine.execMul d a b s
  | .mulh d a b => Sys2Proof.Machine.execMulh d a b s
  | .mulhn d a b => Sys2Proof.Machine.execMulhn d a b s
  | .mulw d a b => Sys2Proof.Machine.execMulw d a b s
  | .div d a b la => Sys2Proof.Machine.execDiv d a b la s
  | .divn d a b la => Sys2Proof.Machine.execDivn d a b la s
  | .rem d a b la => Sys2Proof.Machine.execRem d a b la s
  | .remn d a b la => Sys2Proof.Machine.execRemn d a b la s
  | .divw d a b la => Sys2Proof.Machine.execDivw d a b la s
  | .remw d a b la => Sys2Proof.Machine.execRemw d a b la s
  | .clz d a => Sys2Proof.Machine.execClz d a s
  | .ctz d a => Sys2Proof.Machine.execCtz d a s
  | .popc d a => Sys2Proof.Machine.execPopc d a s
  | .brev d a => Sys2Proof.Machine.execBrev d a s
  | .bswap d a => Sys2Proof.Machine.execBswap d a s
  | .addi d a imm => Sys2Proof.Machine.execAddi d a imm s
  | .andi d a imm => Sys2Proof.Machine.execAndi d a imm s
  | .ori d a imm => Sys2Proof.Machine.execOri d a imm s
  | .xori d a imm => Sys2Proof.Machine.execXori d a imm s
  | .slti d a imm => Sys2Proof.Machine.execSlti d a imm s
  | .sltni d a imm => Sys2Proof.Machine.execSltni d a imm s
  | .slli d a k => Sys2Proof.Machine.execSlli d a k s
  | .srli d a k => Sys2Proof.Machine.execSrli d a k s
  | .srai d a k => Sys2Proof.Machine.execSrai d a k s
  | .roli d a k => Sys2Proof.Machine.execRoli d a k s
  | .rori d a k => Sys2Proof.Machine.execRori d a k s
  | .bfx d a p w => Sys2Proof.Machine.execBfx d a p w s
  | .bfi d a p w => Sys2Proof.Machine.execBfi d a p w s
  | .lih d imm => Sys2Proof.Machine.execLih d imm s
  | .addpc d imm => Sys2Proof.Machine.execAddpc d imm s
  | .beq a b off => Sys2Proof.Machine.execBeq a b off s
  | .bne a b off => Sys2Proof.Machine.execBne a b off s
  | .blt a b off => Sys2Proof.Machine.execBlt a b off s
  | .bge a b off => Sys2Proof.Machine.execBge a b off s
  | .bltn a b off => Sys2Proof.Machine.execBltn a b off s
  | .bgen a b off => Sys2Proof.Machine.execBgen a b off s
  | .call d off => Sys2Proof.Machine.execCall d off s
  | .jmpr d a imm => Sys2Proof.Machine.execJmpr d a imm s
  | .lb d a la off => Sys2Proof.Machine.execLb d a la off s
  | .lh d a la off => Sys2Proof.Machine.execLh d a la off s
  | .lw d a la off => Sys2Proof.Machine.execLw d a la off s
  | .ld d a la off => Sys2Proof.Machine.execLd d a la off s
  | .lbn d a la off => Sys2Proof.Machine.execLbn d a la off s
  | .lhn d a la off => Sys2Proof.Machine.execLhn d a la off s
  | .lwn d a la off => Sys2Proof.Machine.execLwn d a la off s
  | .sb d a la off => Sys2Proof.Machine.execSb d a la off s
  | .sh d a la off => Sys2Proof.Machine.execSh d a la off s
  | .sw d a la off => Sys2Proof.Machine.execSw d a la off s
  | .sd d a la off => Sys2Proof.Machine.execSd d a la off s
  | .lwo d a la ord scope => Sys2Proof.Machine.execLwo d a la ord scope s
  | .ldo d a la ord scope => Sys2Proof.Machine.execLdo d a la ord scope s
  | .swo d a la ord scope => Sys2Proof.Machine.execSwo d a la ord scope s
  | .sdo d a la ord scope => Sys2Proof.Machine.execSdo d a la ord scope s
  | .fence ord scope => Sys2Proof.Machine.execFence ord scope s
  | .pf a la scope => Sys2Proof.Machine.execPf a la scope s
  | .ltag d a la ord scope => Sys2Proof.Machine.execLtag d a la ord scope s
  | .susp d a la scope => Sys2Proof.Machine.execSusp d a la scope s
  | .resolve d a la scope => Sys2Proof.Machine.execResolve d a la scope s
  | .cfail d a la scope => Sys2Proof.Machine.execCfail d a la scope s
  | .cflush a la ord scope => Sys2Proof.Machine.execCflush a la ord scope s
  | .cinv a la ord scope => Sys2Proof.Machine.execCinv a la ord scope s
  | .aadd d a scope ord b sz => Sys2Proof.Machine.execAadd d a scope ord b sz s
  | .afadd d a scope ord b => Sys2Proof.Machine.execAfadd d a scope ord b s
  | .aand d a scope ord b sz => Sys2Proof.Machine.execAand d a scope ord b sz s
  | .aor d a scope ord b sz => Sys2Proof.Machine.execAor d a scope ord b sz s
  | .axor d a scope ord b sz => Sys2Proof.Machine.execAxor d a scope ord b sz s
  | .amin d a scope ord b sz => Sys2Proof.Machine.execAmin d a scope ord b sz s
  | .amax d a scope ord b sz => Sys2Proof.Machine.execAmax d a scope ord b sz s
  | .aminn d a scope ord b sz => Sys2Proof.Machine.execAminn d a scope ord b sz s
  | .amaxn d a scope ord b sz => Sys2Proof.Machine.execAmaxn d a scope ord b sz s
  | .afmin d a scope ord b => Sys2Proof.Machine.execAfmin d a scope ord b s
  | .afmax d a scope ord b => Sys2Proof.Machine.execAfmax d a scope ord b s
  | .aswp d a scope ord b sz => Sys2Proof.Machine.execAswp d a scope ord b sz s
  | .acas d a scope ord b sz => Sys2Proof.Machine.execAcas d a scope ord b sz s
  | .aaddo d a scope ord b sz => Sys2Proof.Machine.execAaddo d a scope ord b sz s
  | .afaddo d a scope ord b => Sys2Proof.Machine.execAfaddo d a scope ord b s
  | .smerge d a scope ord b op => Sys2Proof.Machine.execSmerge d a scope ord b op s
  | .kvrsv d a scope => Sys2Proof.Machine.execKvrsv d a scope s
  | .kvtake d a scope => Sys2Proof.Machine.execKvtake d a scope s
  | .kvgive d a scope => Sys2Proof.Machine.execKvgive d a scope s
  | .kvshare d a scope => Sys2Proof.Machine.execKvshare d a scope s
  | .kvrel d a scope => Sys2Proof.Machine.execKvrel d a scope s
  | .kvpass d a scope => Sys2Proof.Machine.execKvpass d a scope s
  | .kvcow d a scope => Sys2Proof.Machine.execKvcow d a scope s
  | .kvscl d a scope => Sys2Proof.Machine.execKvscl d a scope s
  | .meetC d a b => Sys2Proof.Machine.execMeetC d a b s
  | .meetT d a b => Sys2Proof.Machine.execMeetT d a b s
  | .mlive d a => Sys2Proof.Machine.execMlive d a s
  | .mclr d a => Sys2Proof.Machine.execMclr d a s
  | .mlog d a b => Sys2Proof.Machine.execMlog d a b s
  | .spawn d a => Sys2Proof.Machine.execSpawn d a s
  | .spawnx d a b => Sys2Proof.Machine.execSpawnx d a b s
  | .cont d a b => Sys2Proof.Machine.execCont d a b s
  | .retire a => Sys2Proof.Machine.execRetire a s
  | .launch d a => Sys2Proof.Machine.execLaunch d a s
  | .yield d => Sys2Proof.Machine.execYield d s
  | .send d a b => Sys2Proof.Machine.execSend d a b s
  | .sendt d a b => Sys2Proof.Machine.execSendt d a b s
  | .waitm d a => Sys2Proof.Machine.execWaitm d a s
  | .recv d => Sys2Proof.Machine.execRecv d s
  | .peekm d => Sys2Proof.Machine.execPeekm d s
  | .bara d a => Sys2Proof.Machine.execBara d a s
  | .barw d a b => Sys2Proof.Machine.execBarw d a b s
  | .bar d a => Sys2Proof.Machine.execBar d a s
  | .barex d a b => Sys2Proof.Machine.execBarex d a b s
  | .barcfg d a b => Sys2Proof.Machine.execBarcfg d a b s
  | .qres d a => Sys2Proof.Machine.execQres d a s
  | .qpub d a => Sys2Proof.Machine.execQpub d a s
  | .qacq d a => Sys2Proof.Machine.execQacq d a s
  | .qrel d a => Sys2Proof.Machine.execQrel d a s
  | .bankcfg d a b => Sys2Proof.Machine.execBankcfg d a b s
  | .cpy d a b => Sys2Proof.Machine.execCpy d a b s
  | .cpyt d a => Sys2Proof.Machine.execCpyt d a s
  | .csrr d csr => Sys2Proof.Machine.execCsrr d csr s
  | .csrw d a csr => Sys2Proof.Machine.execCsrw d a csr s
  | .csrs d a csr => Sys2Proof.Machine.execCsrs d a csr s
  | .csrc d a csr => Sys2Proof.Machine.execCsrc d a csr s
  | .ecall => Sys2Proof.Machine.execEcall s
  | .ebreak => Sys2Proof.Machine.execEbreak s
  | .tret => Sys2Proof.Machine.execTret s
  | .fencei => Sys2Proof.Machine.execFencei s
  | .tlbinv a b => Sys2Proof.Machine.execTlbinv a b s
  | .ctxout d a b => Sys2Proof.Machine.execCtxout d a b s
  | .ctxin d a b => Sys2Proof.Machine.execCtxin d a b s
  | .halt a => Sys2Proof.Machine.execHalt a s
  | .wfi d a => Sys2Proof.Machine.execWfi d a s
  | .vld d a la mk off => Sys2Proof.Machine.execVld d a la mk off s
  | .vst d a la mk off => Sys2Proof.Machine.execVst d a la mk off s
  | .vlds d a la mk off => Sys2Proof.Machine.execVlds d a la mk off s
  | .vsts d a la mk off => Sys2Proof.Machine.execVsts d a la mk off s
  | .vgath d a la mk off => Sys2Proof.Machine.execVgath d a la mk off s
  | .vscat d a la mk off => Sys2Proof.Machine.execVscat d a la mk off s
  | .vstq d a la mk off => Sys2Proof.Machine.execVstq d a la mk off s
  | .mmaE4m3 acc mode a b la => Sys2Proof.Machine.execMmaE4m3 acc mode a b la s
  | .mmaE5m2 acc mode a b la => Sys2Proof.Machine.execMmaE5m2 acc mode a b la s
  | .mmaE4m3e5m2 acc mode a b la => Sys2Proof.Machine.execMmaE4m3e5m2 acc mode a b la s
  | .mmaE5m2e4m3 acc mode a b la => Sys2Proof.Machine.execMmaE5m2e4m3 acc mode a b la s
  | .mmaBf16 acc mode a b la => Sys2Proof.Machine.execMmaBf16 acc mode a b la s
  | .mmaF16 acc mode a b la => Sys2Proof.Machine.execMmaF16 acc mode a b la s
  | .mmaI8 acc mode a b la => Sys2Proof.Machine.execMmaI8 acc mode a b la s
  | .mmaMint acc mode a b la => Sys2Proof.Machine.execMmaMint acc mode a b la s
  | .macqFp acc => Sys2Proof.Machine.execMacqFp acc s
  | .macqInt acc => Sys2Proof.Machine.execMacqInt acc s
  | .mrel acc => Sys2Proof.Machine.execMrel acc s
  | .mzero acc => Sys2Proof.Machine.execMzero acc s
  | .mcfg a => Sys2Proof.Machine.execMcfg a s
  | .mld acc a b la => Sys2Proof.Machine.execMld acc a b la s
  | .mst acc a b la => Sys2Proof.Machine.execMst acc a b la s
  | .mrdv acc v b => Sys2Proof.Machine.execMrdv acc v b s
  | .mwrv acc v b => Sys2Proof.Machine.execMwrv acc v b s
  | .mflgFold => Sys2Proof.Machine.execMflgFold s
  | .mflgClear => Sys2Proof.Machine.execMflgClear s
  | .mflgRaise => Sys2Proof.Machine.execMflgRaise s
  | .vadd d a b mk ty => Sys2Proof.Machine.execVadd d a b mk ty s
  | .vsub d a b mk ty => Sys2Proof.Machine.execVsub d a b mk ty s
  | .vmul d a b mk ty => Sys2Proof.Machine.execVmul d a b mk ty s
  | .vdiv d a b mk ty => Sys2Proof.Machine.execVdiv d a b mk ty s
  | .vfma d a b mk ty => Sys2Proof.Machine.execVfma d a b mk ty s
  | .vfms d a b mk ty => Sys2Proof.Machine.execVfms d a b mk ty s
  | .vfnma d a b mk ty => Sys2Proof.Machine.execVfnma d a b mk ty s
  | .vmin d a b mk ty => Sys2Proof.Machine.execVmin d a b mk ty s
  | .vmax d a b mk ty => Sys2Proof.Machine.execVmax d a b mk ty s
  | .vabs d a mk ty => Sys2Proof.Machine.execVabs d a mk ty s
  | .vneg d a mk ty => Sys2Proof.Machine.execVneg d a mk ty s
  | .vsqrt d a mk ty => Sys2Proof.Machine.execVsqrt d a mk ty s
  | .vrsq d a mk ty => Sys2Proof.Machine.execVrsq d a mk ty s
  | .vrcp d a mk ty => Sys2Proof.Machine.execVrcp d a mk ty s
  | .vexp2 d a mk ty => Sys2Proof.Machine.execVexp2 d a mk ty s
  | .vlog2 d a mk ty => Sys2Proof.Machine.execVlog2 d a mk ty s
  | .vclass d a mk ty => Sys2Proof.Machine.execVclass d a mk ty s
  | .viadd d a b mk ty => Sys2Proof.Machine.execViadd d a b mk ty s
  | .visub d a b mk ty => Sys2Proof.Machine.execVisub d a b mk ty s
  | .vimul d a b mk ty => Sys2Proof.Machine.execVimul d a b mk ty s
  | .vand d a b mk ty => Sys2Proof.Machine.execVand d a b mk ty s
  | .vor d a b mk ty => Sys2Proof.Machine.execVor d a b mk ty s
  | .vxor d a b mk ty => Sys2Proof.Machine.execVxor d a b mk ty s
  | .vsll d a b mk ty => Sys2Proof.Machine.execVsll d a b mk ty s
  | .vsrl d a b mk ty => Sys2Proof.Machine.execVsrl d a b mk ty s
  | .vsra d a b mk ty => Sys2Proof.Machine.execVsra d a b mk ty s
  | .vimin d a b mk ty => Sys2Proof.Machine.execVimin d a b mk ty s
  | .vimax d a b mk ty => Sys2Proof.Machine.execVimax d a b mk ty s
  | .viminn d a b mk ty => Sys2Proof.Machine.execViminn d a b mk ty s
  | .vimaxn d a b mk ty => Sys2Proof.Machine.execVimaxn d a b mk ty s
  | .vcmpEq d a b mk ty => Sys2Proof.Machine.execVcmpEq d a b mk ty s
  | .vcmpNe d a b mk ty => Sys2Proof.Machine.execVcmpNe d a b mk ty s
  | .vcmpLt d a b mk ty => Sys2Proof.Machine.execVcmpLt d a b mk ty s
  | .vcmpLe d a b mk ty => Sys2Proof.Machine.execVcmpLe d a b mk ty s
  | .vcmpUn d a b mk ty => Sys2Proof.Machine.execVcmpUn d a b mk ty s
  | .vcmpLtn d a b mk ty => Sys2Proof.Machine.execVcmpLtn d a b mk ty s
  | .vcmpLen d a b mk ty => Sys2Proof.Machine.execVcmpLen d a b mk ty s
  | .vsel d a b mk ty => Sys2Proof.Machine.execVsel d a b mk ty s
  | .vperm d a b mk ty => Sys2Proof.Machine.execVperm d a b mk ty s
  | .vbcast d x mk ty => Sys2Proof.Machine.execVbcast d x mk ty s
  | .vext x b mk ty => Sys2Proof.Machine.execVext x b mk ty s
  | .vins d x mk ty => Sys2Proof.Machine.execVins d x mk ty s
  | .viota d mk ty => Sys2Proof.Machine.execViota d mk ty s
  | .vmv d a mk ty => Sys2Proof.Machine.execVmv d a mk ty s
  | .vslide d a n mk ty => Sys2Proof.Machine.execVslide d a n mk ty s
  | .vcvtF32Bf16 d a mk => Sys2Proof.Machine.execVcvtF32Bf16 d a mk s
  | .vcvtF32F16 d a mk => Sys2Proof.Machine.execVcvtF32F16 d a mk s
  | .vcvtF32E4m3 d a mk => Sys2Proof.Machine.execVcvtF32E4m3 d a mk s
  | .vcvtF32E5m2 d a mk => Sys2Proof.Machine.execVcvtF32E5m2 d a mk s
  | .vcvtBf16F32 d a mk => Sys2Proof.Machine.execVcvtBf16F32 d a mk s
  | .vcvtF16F32 d a mk => Sys2Proof.Machine.execVcvtF16F32 d a mk s
  | .vcvtE4m3F32 d a mk => Sys2Proof.Machine.execVcvtE4m3F32 d a mk s
  | .vcvtE5m2F32 d a mk => Sys2Proof.Machine.execVcvtE5m2F32 d a mk s
  | .vcvtF32I32 d a mk => Sys2Proof.Machine.execVcvtF32I32 d a mk s
  | .vcvtI32F32 d a mk => Sys2Proof.Machine.execVcvtI32F32 d a mk s
  | .vcvtI8I32 d a mk => Sys2Proof.Machine.execVcvtI8I32 d a mk s
  | .vcvtI32I8 d a mk => Sys2Proof.Machine.execVcvtI32I8 d a mk s
  | .vrsum d a mk ty => Sys2Proof.Machine.execVrsum d a mk ty s
  | .vrmax d a mk ty => Sys2Proof.Machine.execVrmax d a mk ty s
  | .vrmin d a mk ty => Sys2Proof.Machine.execVrmin d a mk ty s
  | .vscan d a mk ty => Sys2Proof.Machine.execVscan d a mk ty s
  | .vtopk d a mk ty => Sys2Proof.Machine.execVtopk d a mk ty s
  | .mand d a b => Sys2Proof.Machine.execMand d a b s
  | .mor d a b => Sys2Proof.Machine.execMor d a b s
  | .mxor d a b => Sys2Proof.Machine.execMxor d a b s
  | .mnot d a => Sys2Proof.Machine.execMnot d a s
  | .mpop d b ty => Sys2Proof.Machine.execMpop d b ty s
  | .mfirst d b ty => Sys2Proof.Machine.execMfirst d b ty s
  | .mset d kl kh => Sys2Proof.Machine.execMset d kl kh s
  | .fadd d a b => Sys2Proof.Machine.execFadd d a b s
  | .fsub d a b => Sys2Proof.Machine.execFsub d a b s
  | .fmul d a b => Sys2Proof.Machine.execFmul d a b s
  | .fdiv d a b => Sys2Proof.Machine.execFdiv d a b s
  | .fsqrt d a => Sys2Proof.Machine.execFsqrt d a s
  | .ffma d a b => Sys2Proof.Machine.execFfma d a b s
  | .fmin d a b => Sys2Proof.Machine.execFmin d a b s
  | .fmax d a b => Sys2Proof.Machine.execFmax d a b s
  | .feq d a b => Sys2Proof.Machine.execFeq d a b s
  | .flt d a b => Sys2Proof.Machine.execFlt d a b s
  | .fle d a b => Sys2Proof.Machine.execFle d a b s
  | .fclass d a => Sys2Proof.Machine.execFclass d a s
  | .fexp2 d a => Sys2Proof.Machine.execFexp2 d a s
  | .flog2 d a => Sys2Proof.Machine.execFlog2 d a s
  | .fcvtif d a code => Sys2Proof.Machine.execFcvtif d a code s
  | .fcvtfi d a code => Sys2Proof.Machine.execFcvtfi d a code s
  | .fcvtff d a code => Sys2Proof.Machine.execFcvtff d a code s

end Sys2Proof.Machine
end

