-- ==== Sys2Proof/Machine/Run.lean ====
section
/-!
DEFINITION. The meaning of an instruction word: that of the instruction which the decoder reads from it. The second half computes it
without building the instruction, because the runtime cannot build the last constructors of an inductive as large as `Instr`;
the last theorem says that the two are one function, and the compiler uses the second.
-/
namespace Sys2Proof.Machine

/-- What follows from a decoding: `good` with the meaning of the instruction, or `bad` with the decode error. -/
def meaningOf {α : Type} (r : Except DecodeError Instr) (bad : DecodeError → α) (good : (State → Outcome) → α) : α :=
  match r with
  | .ok i => good (exec i)
  | .error e => bad e

/-- The meaning of a word (R64). -/
noncomputable def withWord {α : Type} (w : BitVec 32) (bad : DecodeError → α) (good : (State → Outcome) → α) : α :=
  meaningOf (decode w) bad good

theorem meaningOf_row {α : Type} (w p m : BitVec 32) (i : Instr) (bad : DecodeError → α) (good : (State → Outcome) → α) :
    meaningOf (row w p m i) bad good =
      if w &&& m = p ∧ i.wellFormed = true then good (exec i) else bad .reservedField := by
  unfold row
  split <;> rfl

/-- As `decodeVfp`, with the meaning of the instruction in place of the instruction. -/
def wordVfp {α : Type} (w : BitVec 32) (bad : DecodeError → α) (good : (State → Outcome) → α) : α :=
  match (f w 22 6).toNat with
  | 0 => if w &&& 0x0FC0007F = 0x00000030 ∧ (tyFloat (f w 28 4)) = true then good (execVadd (f w 7 4) (f w 11 4) (f w 15 4) (f w 19 3) (f w 28 4)) else bad .reservedField
  | 1 => if w &&& 0x0FC0007F = 0x00400030 ∧ (tyFloat (f w 28 4)) = true then good (execVsub (f w 7 4) (f w 11 4) (f w 15 4) (f w 19 3) (f w 28 4)) else bad .reservedField
  | 2 => if w &&& 0x0FC0007F = 0x00800030 ∧ (tyFloat (f w 28 4)) = true then good (execVmul (f w 7 4) (f w 11 4) (f w 15 4) (f w 19 3) (f w 28 4)) else bad .reservedField
  | 3 => if w &&& 0x0FC0007F = 0x00C00030 ∧ (tyFloat (f w 28 4)) = true then good (execVdiv (f w 7 4) (f w 11 4) (f w 15 4) (f w 19 3) (f w 28 4)) else bad .reservedField
  | 4 => if w &&& 0x0FC0007F = 0x01000030 ∧ (tyFloat (f w 28 4)) = true then good (execVfma (f w 7 4) (f w 11 4) (f w 15 4) (f w 19 3) (f w 28 4)) else bad .reservedField
  | 5 => if w &&& 0x0FC0007F = 0x01400030 ∧ (tyFloat (f w 28 4)) = true then good (execVfms (f w 7 4) (f w 11 4) (f w 15 4) (f w 19 3) (f w 28 4)) else bad .reservedField
  | 6 => if w &&& 0x0FC0007F = 0x01800030 ∧ (tyFloat (f w 28 4)) = true then good (execVfnma (f w 7 4) (f w 11 4) (f w 15 4) (f w 19 3) (f w 28 4)) else bad .reservedField
  | 7 => if w &&& 0x0FC0007F = 0x01C00030 ∧ (tyFloat (f w 28 4)) = true then good (execVmin (f w 7 4) (f w 11 4) (f w 15 4) (f w 19 3) (f w 28 4)) else bad .reservedField
  | 8 => if w &&& 0x0FC0007F = 0x02000030 ∧ (tyFloat (f w 28 4)) = true then good (execVmax (f w 7 4) (f w 11 4) (f w 15 4) (f w 19 3) (f w 28 4)) else bad .reservedField
  | 9 => if w &&& 0x0FC7807F = 0x02400030 ∧ (tyFloat (f w 28 4)) = true then good (execVabs (f w 7 4) (f w 11 4) (f w 19 3) (f w 28 4)) else bad .reservedField
  | 10 => if w &&& 0x0FC7807F = 0x02800030 ∧ (tyFloat (f w 28 4)) = true then good (execVneg (f w 7 4) (f w 11 4) (f w 19 3) (f w 28 4)) else bad .reservedField
  | 11 => if w &&& 0x0FC7807F = 0x02C00030 ∧ (tyFloat (f w 28 4)) = true then good (execVsqrt (f w 7 4) (f w 11 4) (f w 19 3) (f w 28 4)) else bad .reservedField
  | 12 => if w &&& 0x0FC7807F = 0x03000030 ∧ (tyFloat (f w 28 4)) = true then good (execVrsq (f w 7 4) (f w 11 4) (f w 19 3) (f w 28 4)) else bad .reservedField
  | 13 => if w &&& 0x0FC7807F = 0x03400030 ∧ (tyFloat (f w 28 4)) = true then good (execVrcp (f w 7 4) (f w 11 4) (f w 19 3) (f w 28 4)) else bad .reservedField
  | 14 => if w &&& 0x0FC7807F = 0x03800030 ∧ (tyFloat (f w 28 4)) = true then good (execVexp2 (f w 7 4) (f w 11 4) (f w 19 3) (f w 28 4)) else bad .reservedField
  | 15 => if w &&& 0x0FC7807F = 0x03C00030 ∧ (tyFloat (f w 28 4)) = true then good (execVlog2 (f w 7 4) (f w 11 4) (f w 19 3) (f w 28 4)) else bad .reservedField
  | 16 => if w &&& 0x0FC7807F = 0x04000030 ∧ (tyFloat (f w 28 4)) = true then good (execVclass (f w 7 4) (f w 11 4) (f w 19 3) (f w 28 4)) else bad .reservedField
  | _ => bad .illegalOpcode

/-- As `decodeVint`, with the meaning of the instruction in place of the instruction. -/
def wordVint {α : Type} (w : BitVec 32) (bad : DecodeError → α) (good : (State → Outcome) → α) : α :=
  match (f w 22 6).toNat with
  | 0 => if w &&& 0x0FC0007F = 0x00000031 ∧ (tyInt (f w 28 4)) = true then good (execViadd (f w 7 4) (f w 11 4) (f w 15 4) (f w 19 3) (f w 28 4)) else bad .reservedField
  | 1 => if w &&& 0x0FC0007F = 0x00400031 ∧ (tyInt (f w 28 4)) = true then good (execVisub (f w 7 4) (f w 11 4) (f w 15 4) (f w 19 3) (f w 28 4)) else bad .reservedField
  | 2 => if w &&& 0x0FC0007F = 0x00800031 ∧ (tyInt (f w 28 4)) = true then good (execVimul (f w 7 4) (f w 11 4) (f w 15 4) (f w 19 3) (f w 28 4)) else bad .reservedField
  | 3 => if w &&& 0x0FC0007F = 0x00C00031 ∧ (tyInt (f w 28 4)) = true then good (execVand (f w 7 4) (f w 11 4) (f w 15 4) (f w 19 3) (f w 28 4)) else bad .reservedField
  | 4 => if w &&& 0x0FC0007F = 0x01000031 ∧ (tyInt (f w 28 4)) = true then good (execVor (f w 7 4) (f w 11 4) (f w 15 4) (f w 19 3) (f w 28 4)) else bad .reservedField
  | 5 => if w &&& 0x0FC0007F = 0x01400031 ∧ (tyInt (f w 28 4)) = true then good (execVxor (f w 7 4) (f w 11 4) (f w 15 4) (f w 19 3) (f w 28 4)) else bad .reservedField
  | 6 => if w &&& 0x0FC0007F = 0x01800031 ∧ (tyInt (f w 28 4)) = true then good (execVsll (f w 7 4) (f w 11 4) (f w 15 4) (f w 19 3) (f w 28 4)) else bad .reservedField
  | 7 => if w &&& 0x0FC0007F = 0x01C00031 ∧ (tyInt (f w 28 4)) = true then good (execVsrl (f w 7 4) (f w 11 4) (f w 15 4) (f w 19 3) (f w 28 4)) else bad .reservedField
  | 8 => if w &&& 0x0FC0007F = 0x02000031 ∧ (tyInt (f w 28 4)) = true then good (execVsra (f w 7 4) (f w 11 4) (f w 15 4) (f w 19 3) (f w 28 4)) else bad .reservedField
  | 9 => if w &&& 0x0FC0007F = 0x02400031 ∧ (tyInt (f w 28 4)) = true then good (execVimin (f w 7 4) (f w 11 4) (f w 15 4) (f w 19 3) (f w 28 4)) else bad .reservedField
  | 10 => if w &&& 0x0FC0007F = 0x02800031 ∧ (tyInt (f w 28 4)) = true then good (execVimax (f w 7 4) (f w 11 4) (f w 15 4) (f w 19 3) (f w 28 4)) else bad .reservedField
  | 11 => if w &&& 0x0FC0007F = 0x02C00031 ∧ (tyInt (f w 28 4)) = true then good (execViminn (f w 7 4) (f w 11 4) (f w 15 4) (f w 19 3) (f w 28 4)) else bad .reservedField
  | 12 => if w &&& 0x0FC0007F = 0x03000031 ∧ (tyInt (f w 28 4)) = true then good (execVimaxn (f w 7 4) (f w 11 4) (f w 15 4) (f w 19 3) (f w 28 4)) else bad .reservedField
  | _ => bad .illegalOpcode

/-- As `decodeVcmp`, with the meaning of the instruction in place of the instruction. -/
def wordVcmp {α : Type} (w : BitVec 32) (bad : DecodeError → α) (good : (State → Outcome) → α) : α :=
  match (f w 22 6).toNat with
  | 0 => if w &&& 0x0FC0047F = 0x00000032 ∧ (tyAny (f w 28 4)) = true then good (execVcmpEq (f w 7 3) (f w 11 4) (f w 15 4) (f w 19 3) (f w 28 4)) else bad .reservedField
  | 1 => if w &&& 0x0FC0047F = 0x00400032 ∧ (tyAny (f w 28 4)) = true then good (execVcmpNe (f w 7 3) (f w 11 4) (f w 15 4) (f w 19 3) (f w 28 4)) else bad .reservedField
  | 2 => if w &&& 0x0FC0047F = 0x00800032 ∧ (tyAny (f w 28 4)) = true then good (execVcmpLt (f w 7 3) (f w 11 4) (f w 15 4) (f w 19 3) (f w 28 4)) else bad .reservedField
  | 3 => if w &&& 0x0FC0047F = 0x00C00032 ∧ (tyAny (f w 28 4)) = true then good (execVcmpLe (f w 7 3) (f w 11 4) (f w 15 4) (f w 19 3) (f w 28 4)) else bad .reservedField
  | 4 => if w &&& 0x0FC0047F = 0x01000032 ∧ (tyFloat (f w 28 4)) = true then good (execVcmpUn (f w 7 3) (f w 11 4) (f w 15 4) (f w 19 3) (f w 28 4)) else bad .reservedField
  | 5 => if w &&& 0x0FC0047F = 0x01400032 ∧ (tyInt (f w 28 4)) = true then good (execVcmpLtn (f w 7 3) (f w 11 4) (f w 15 4) (f w 19 3) (f w 28 4)) else bad .reservedField
  | 6 => if w &&& 0x0FC0047F = 0x01800032 ∧ (tyInt (f w 28 4)) = true then good (execVcmpLen (f w 7 3) (f w 11 4) (f w 15 4) (f w 19 3) (f w 28 4)) else bad .reservedField
  | _ => bad .illegalOpcode

/-- As `decodeVmove`, with the meaning of the instruction in place of the instruction. -/
def wordVmove {α : Type} (w : BitVec 32) (bad : DecodeError → α) (good : (State → Outcome) → α) : α :=
  match (f w 22 6).toNat with
  | 0 => if w &&& 0x0FC0007F = 0x00000033 ∧ (tyAny (f w 28 4)) = true then good (execVsel (f w 7 4) (f w 11 4) (f w 15 4) (f w 19 3) (f w 28 4)) else bad .reservedField
  | 1 => if w &&& 0x0FC0007F = 0x00400033 ∧ (tyAny (f w 28 4)) = true then good (execVperm (f w 7 4) (f w 11 4) (f w 15 4) (f w 19 3) (f w 28 4)) else bad .reservedField
  | 2 => if w &&& 0x0FC7007F = 0x00800033 ∧ (tyAny (f w 28 4)) = true then good (execVbcast (f w 7 4) (f w 11 5) (f w 19 3) (f w 28 4)) else bad .reservedField
  | 3 => if w &&& 0x0FC0707F = 0x00C00033 ∧ (tyAny (f w 28 4)) = true then good (execVext (f w 7 5) (f w 15 4) (f w 19 3) (f w 28 4)) else bad .reservedField
  | 4 => if w &&& 0x0FC7007F = 0x01000033 ∧ (tyAny (f w 28 4)) = true then good (execVins (f w 7 4) (f w 11 5) (f w 19 3) (f w 28 4)) else bad .reservedField
  | 5 => if w &&& 0x0FC7F87F = 0x01400033 ∧ (tyInt (f w 28 4)) = true then good (execViota (f w 7 4) (f w 19 3) (f w 28 4)) else bad .reservedField
  | 6 => if w &&& 0x0FC7807F = 0x01800033 ∧ (tyAny (f w 28 4)) = true then good (execVmv (f w 7 4) (f w 11 4) (f w 19 3) (f w 28 4)) else bad .reservedField
  | 7 => if w &&& 0x0FC0007F = 0x01C00033 ∧ (tyAny (f w 28 4)) = true then good (execVslide (f w 7 4) (f w 11 4) (f w 15 4) (f w 19 3) (f w 28 4)) else bad .reservedField
  | _ => bad .illegalOpcode

/-- As `decodeVcvt`, with the meaning of the instruction in place of the instruction. -/
def wordVcvt {α : Type} (w : BitVec 32) (bad : DecodeError → α) (good : (State → Outcome) → α) : α :=
  match (f w 22 6).toNat with
  | 0 => if w &&& 0xFFC7807F = 0x00000034 ∧ (true) = true then good (execVcvtF32Bf16 (f w 7 4) (f w 11 4) (f w 19 3)) else bad .reservedField
  | 1 => if w &&& 0xFFC7807F = 0x00400034 ∧ (true) = true then good (execVcvtF32F16 (f w 7 4) (f w 11 4) (f w 19 3)) else bad .reservedField
  | 2 => if w &&& 0xFFC7807F = 0x00800034 ∧ (true) = true then good (execVcvtF32E4m3 (f w 7 4) (f w 11 4) (f w 19 3)) else bad .reservedField
  | 3 => if w &&& 0xFFC7807F = 0x00C00034 ∧ (true) = true then good (execVcvtF32E5m2 (f w 7 4) (f w 11 4) (f w 19 3)) else bad .reservedField
  | 4 => if w &&& 0xFFC7807F = 0x01000034 ∧ (true) = true then good (execVcvtBf16F32 (f w 7 4) (f w 11 4) (f w 19 3)) else bad .reservedField
  | 5 => if w &&& 0xFFC7807F = 0x01400034 ∧ (true) = true then good (execVcvtF16F32 (f w 7 4) (f w 11 4) (f w 19 3)) else bad .reservedField
  | 6 => if w &&& 0xFFC7807F = 0x01800034 ∧ (true) = true then good (execVcvtE4m3F32 (f w 7 4) (f w 11 4) (f w 19 3)) else bad .reservedField
  | 7 => if w &&& 0xFFC7807F = 0x01C00034 ∧ (true) = true then good (execVcvtE5m2F32 (f w 7 4) (f w 11 4) (f w 19 3)) else bad .reservedField
  | 8 => if w &&& 0xFFC7807F = 0x02000034 ∧ (true) = true then good (execVcvtF32I32 (f w 7 4) (f w 11 4) (f w 19 3)) else bad .reservedField
  | 9 => if w &&& 0xFFC7807F = 0x02400034 ∧ (true) = true then good (execVcvtI32F32 (f w 7 4) (f w 11 4) (f w 19 3)) else bad .reservedField
  | 10 => if w &&& 0xFFC7807F = 0x02800034 ∧ (true) = true then good (execVcvtI8I32 (f w 7 4) (f w 11 4) (f w 19 3)) else bad .reservedField
  | 11 => if w &&& 0xFFC7807F = 0x02C00034 ∧ (true) = true then good (execVcvtI32I8 (f w 7 4) (f w 11 4) (f w 19 3)) else bad .reservedField
  | _ => bad .illegalOpcode

/-- As `decodeVred`, with the meaning of the instruction in place of the instruction. -/
def wordVred {α : Type} (w : BitVec 32) (bad : DecodeError → α) (good : (State → Outcome) → α) : α :=
  match (f w 22 6).toNat with
  | 0 => if w &&& 0x0FC7807F = 0x00000035 ∧ (tyAny (f w 28 4)) = true then good (execVrsum (f w 7 4) (f w 11 4) (f w 19 3) (f w 28 4)) else bad .reservedField
  | 1 => if w &&& 0x0FC7807F = 0x00400035 ∧ (tyAny (f w 28 4)) = true then good (execVrmax (f w 7 4) (f w 11 4) (f w 19 3) (f w 28 4)) else bad .reservedField
  | 2 => if w &&& 0x0FC7807F = 0x00800035 ∧ (tyAny (f w 28 4)) = true then good (execVrmin (f w 7 4) (f w 11 4) (f w 19 3) (f w 28 4)) else bad .reservedField
  | 3 => if w &&& 0x0FC7807F = 0x00C00035 ∧ (tyAny (f w 28 4)) = true then good (execVscan (f w 7 4) (f w 11 4) (f w 19 3) (f w 28 4)) else bad .reservedField
  | 4 => if w &&& 0x0FC7807F = 0x01000035 ∧ (tyAny (f w 28 4)) = true then good (execVtopk (f w 7 4) (f w 11 4) (f w 19 3) (f w 28 4)) else bad .reservedField
  | _ => bad .illegalOpcode

/-- As `decodeMask`, with the meaning of the instruction in place of the instruction. -/
def wordMask {α : Type} (w : BitVec 32) (bad : DecodeError → α) (good : (State → Outcome) → α) : α :=
  match (f w 22 6).toNat with
  | 0 => if w &&& 0xFFFC447F = 0x00000036 ∧ (true) = true then good (execMand (f w 7 3) (f w 11 3) (f w 15 3)) else bad .reservedField
  | 1 => if w &&& 0xFFFC447F = 0x00400036 ∧ (true) = true then good (execMor (f w 7 3) (f w 11 3) (f w 15 3)) else bad .reservedField
  | 2 => if w &&& 0xFFFC447F = 0x00800036 ∧ (true) = true then good (execMxor (f w 7 3) (f w 11 3) (f w 15 3)) else bad .reservedField
  | 3 => if w &&& 0xFFFFC47F = 0x00C00036 ∧ (true) = true then good (execMnot (f w 7 3) (f w 11 3)) else bad .reservedField
  | 4 => if w &&& 0x0FFC707F = 0x01000036 ∧ (tyAny (f w 28 4)) = true then good (execMpop (f w 7 5) (f w 15 3) (f w 28 4)) else bad .reservedField
  | 5 => if w &&& 0x0FFC707F = 0x01400036 ∧ (tyAny (f w 28 4)) = true then good (execMfirst (f w 7 5) (f w 15 3) (f w 28 4)) else bad .reservedField
  | 6 => if w &&& 0xFFF8047F = 0x01800036 ∧ (true) = true then good (execMset (f w 7 3) (f w 11 4) (f w 15 4)) else bad .reservedField
  | _ => bad .illegalOpcode

/-- As `decodeSfp`, with the meaning of the instruction in place of the instruction. -/
def wordSfp {α : Type} (w : BitVec 32) (bad : DecodeError → α) (good : (State → Outcome) → α) : α :=
  match (f w 22 6).toNat with
  | 0 => if w &&& 0xFFC0007F = 0x00000037 ∧ (true) = true then good (execFadd (f w 7 5) (f w 12 5) (f w 17 5)) else bad .reservedField
  | 1 => if w &&& 0xFFC0007F = 0x00400037 ∧ (true) = true then good (execFsub (f w 7 5) (f w 12 5) (f w 17 5)) else bad .reservedField
  | 2 => if w &&& 0xFFC0007F = 0x00800037 ∧ (true) = true then good (execFmul (f w 7 5) (f w 12 5) (f w 17 5)) else bad .reservedField
  | 3 => if w &&& 0xFFC0007F = 0x00C00037 ∧ (true) = true then good (execFdiv (f w 7 5) (f w 12 5) (f w 17 5)) else bad .reservedField
  | 4 => if w &&& 0xFFFE007F = 0x01000037 ∧ (true) = true then good (execFsqrt (f w 7 5) (f w 12 5)) else bad .reservedField
  | 5 => if w &&& 0xFFC0007F = 0x01400037 ∧ (true) = true then good (execFfma (f w 7 5) (f w 12 5) (f w 17 5)) else bad .reservedField
  | 6 => if w &&& 0xFFC0007F = 0x01800037 ∧ (true) = true then good (execFmin (f w 7 5) (f w 12 5) (f w 17 5)) else bad .reservedField
  | 7 => if w &&& 0xFFC0007F = 0x01C00037 ∧ (true) = true then good (execFmax (f w 7 5) (f w 12 5) (f w 17 5)) else bad .reservedField
  | 8 => if w &&& 0xFFC0007F = 0x02000037 ∧ (true) = true then good (execFeq (f w 7 5) (f w 12 5) (f w 17 5)) else bad .reservedField
  | 9 => if w &&& 0xFFC0007F = 0x02400037 ∧ (true) = true then good (execFlt (f w 7 5) (f w 12 5) (f w 17 5)) else bad .reservedField
  | 10 => if w &&& 0xFFC0007F = 0x02800037 ∧ (true) = true then good (execFle (f w 7 5) (f w 12 5) (f w 17 5)) else bad .reservedField
  | 11 => if w &&& 0xFFFE007F = 0x02C00037 ∧ (true) = true then good (execFclass (f w 7 5) (f w 12 5)) else bad .reservedField
  | 12 => if w &&& 0xFFFE007F = 0x03000037 ∧ (true) = true then good (execFexp2 (f w 7 5) (f w 12 5)) else bad .reservedField
  | 13 => if w &&& 0xFFFE007F = 0x03400037 ∧ (true) = true then good (execFlog2 (f w 7 5) (f w 12 5)) else bad .reservedField
  | 14 => if w &&& 0xFFC0007F = 0x03800037 ∧ (decide ((f w 17 5).toNat ≤ 3)) = true then good (execFcvtif (f w 7 5) (f w 12 5) (f w 17 5)) else bad .reservedField
  | 15 => if w &&& 0xFFC0007F = 0x03C00037 ∧ (decide ((f w 17 5).toNat ≤ 3)) = true then good (execFcvtfi (f w 7 5) (f w 12 5) (f w 17 5)) else bad .reservedField
  | 16 => if w &&& 0xFFC0007F = 0x04000037 ∧ (decide ((f w 17 5).toNat ≤ 7)) = true then good (execFcvtff (f w 7 5) (f w 12 5) (f w 17 5)) else bad .reservedField
  | _ => bad .illegalOpcode

theorem wordVfp_eq {α : Type} (w : BitVec 32) (bad : DecodeError → α) (good : (State → Outcome) → α) :
    meaningOf (decodeVfp w) bad good = wordVfp w bad good := by
  unfold decodeVfp wordVfp
  generalize (f w 22 6).toNat = n
  match n with
  | 0 => exact meaningOf_row _ _ _ _ _ _
  | 1 => exact meaningOf_row _ _ _ _ _ _
  | 2 => exact meaningOf_row _ _ _ _ _ _
  | 3 => exact meaningOf_row _ _ _ _ _ _
  | 4 => exact meaningOf_row _ _ _ _ _ _
  | 5 => exact meaningOf_row _ _ _ _ _ _
  | 6 => exact meaningOf_row _ _ _ _ _ _
  | 7 => exact meaningOf_row _ _ _ _ _ _
  | 8 => exact meaningOf_row _ _ _ _ _ _
  | 9 => exact meaningOf_row _ _ _ _ _ _
  | 10 => exact meaningOf_row _ _ _ _ _ _
  | 11 => exact meaningOf_row _ _ _ _ _ _
  | 12 => exact meaningOf_row _ _ _ _ _ _
  | 13 => exact meaningOf_row _ _ _ _ _ _
  | 14 => exact meaningOf_row _ _ _ _ _ _
  | 15 => exact meaningOf_row _ _ _ _ _ _
  | 16 => exact meaningOf_row _ _ _ _ _ _
  | _ + 17 => rfl

theorem wordVint_eq {α : Type} (w : BitVec 32) (bad : DecodeError → α) (good : (State → Outcome) → α) :
    meaningOf (decodeVint w) bad good = wordVint w bad good := by
  unfold decodeVint wordVint
  generalize (f w 22 6).toNat = n
  match n with
  | 0 => exact meaningOf_row _ _ _ _ _ _
  | 1 => exact meaningOf_row _ _ _ _ _ _
  | 2 => exact meaningOf_row _ _ _ _ _ _
  | 3 => exact meaningOf_row _ _ _ _ _ _
  | 4 => exact meaningOf_row _ _ _ _ _ _
  | 5 => exact meaningOf_row _ _ _ _ _ _
  | 6 => exact meaningOf_row _ _ _ _ _ _
  | 7 => exact meaningOf_row _ _ _ _ _ _
  | 8 => exact meaningOf_row _ _ _ _ _ _
  | 9 => exact meaningOf_row _ _ _ _ _ _
  | 10 => exact meaningOf_row _ _ _ _ _ _
  | 11 => exact meaningOf_row _ _ _ _ _ _
  | 12 => exact meaningOf_row _ _ _ _ _ _
  | _ + 13 => rfl

theorem wordVcmp_eq {α : Type} (w : BitVec 32) (bad : DecodeError → α) (good : (State → Outcome) → α) :
    meaningOf (decodeVcmp w) bad good = wordVcmp w bad good := by
  unfold decodeVcmp wordVcmp
  generalize (f w 22 6).toNat = n
  match n with
  | 0 => exact meaningOf_row _ _ _ _ _ _
  | 1 => exact meaningOf_row _ _ _ _ _ _
  | 2 => exact meaningOf_row _ _ _ _ _ _
  | 3 => exact meaningOf_row _ _ _ _ _ _
  | 4 => exact meaningOf_row _ _ _ _ _ _
  | 5 => exact meaningOf_row _ _ _ _ _ _
  | 6 => exact meaningOf_row _ _ _ _ _ _
  | _ + 7 => rfl

theorem wordVmove_eq {α : Type} (w : BitVec 32) (bad : DecodeError → α) (good : (State → Outcome) → α) :
    meaningOf (decodeVmove w) bad good = wordVmove w bad good := by
  unfold decodeVmove wordVmove
  generalize (f w 22 6).toNat = n
  match n with
  | 0 => exact meaningOf_row _ _ _ _ _ _
  | 1 => exact meaningOf_row _ _ _ _ _ _
  | 2 => exact meaningOf_row _ _ _ _ _ _
  | 3 => exact meaningOf_row _ _ _ _ _ _
  | 4 => exact meaningOf_row _ _ _ _ _ _
  | 5 => exact meaningOf_row _ _ _ _ _ _
  | 6 => exact meaningOf_row _ _ _ _ _ _
  | 7 => exact meaningOf_row _ _ _ _ _ _
  | _ + 8 => rfl

theorem wordVcvt_eq {α : Type} (w : BitVec 32) (bad : DecodeError → α) (good : (State → Outcome) → α) :
    meaningOf (decodeVcvt w) bad good = wordVcvt w bad good := by
  unfold decodeVcvt wordVcvt
  generalize (f w 22 6).toNat = n
  match n with
  | 0 => exact meaningOf_row _ _ _ _ _ _
  | 1 => exact meaningOf_row _ _ _ _ _ _
  | 2 => exact meaningOf_row _ _ _ _ _ _
  | 3 => exact meaningOf_row _ _ _ _ _ _
  | 4 => exact meaningOf_row _ _ _ _ _ _
  | 5 => exact meaningOf_row _ _ _ _ _ _
  | 6 => exact meaningOf_row _ _ _ _ _ _
  | 7 => exact meaningOf_row _ _ _ _ _ _
  | 8 => exact meaningOf_row _ _ _ _ _ _
  | 9 => exact meaningOf_row _ _ _ _ _ _
  | 10 => exact meaningOf_row _ _ _ _ _ _
  | 11 => exact meaningOf_row _ _ _ _ _ _
  | _ + 12 => rfl

theorem wordVred_eq {α : Type} (w : BitVec 32) (bad : DecodeError → α) (good : (State → Outcome) → α) :
    meaningOf (decodeVred w) bad good = wordVred w bad good := by
  unfold decodeVred wordVred
  generalize (f w 22 6).toNat = n
  match n with
  | 0 => exact meaningOf_row _ _ _ _ _ _
  | 1 => exact meaningOf_row _ _ _ _ _ _
  | 2 => exact meaningOf_row _ _ _ _ _ _
  | 3 => exact meaningOf_row _ _ _ _ _ _
  | 4 => exact meaningOf_row _ _ _ _ _ _
  | _ + 5 => rfl

theorem wordMask_eq {α : Type} (w : BitVec 32) (bad : DecodeError → α) (good : (State → Outcome) → α) :
    meaningOf (decodeMask w) bad good = wordMask w bad good := by
  unfold decodeMask wordMask
  generalize (f w 22 6).toNat = n
  match n with
  | 0 => exact meaningOf_row _ _ _ _ _ _
  | 1 => exact meaningOf_row _ _ _ _ _ _
  | 2 => exact meaningOf_row _ _ _ _ _ _
  | 3 => exact meaningOf_row _ _ _ _ _ _
  | 4 => exact meaningOf_row _ _ _ _ _ _
  | 5 => exact meaningOf_row _ _ _ _ _ _
  | 6 => exact meaningOf_row _ _ _ _ _ _
  | _ + 7 => rfl

theorem wordSfp_eq {α : Type} (w : BitVec 32) (bad : DecodeError → α) (good : (State → Outcome) → α) :
    meaningOf (decodeSfp w) bad good = wordSfp w bad good := by
  unfold decodeSfp wordSfp
  generalize (f w 22 6).toNat = n
  match n with
  | 0 => exact meaningOf_row _ _ _ _ _ _
  | 1 => exact meaningOf_row _ _ _ _ _ _
  | 2 => exact meaningOf_row _ _ _ _ _ _
  | 3 => exact meaningOf_row _ _ _ _ _ _
  | 4 => exact meaningOf_row _ _ _ _ _ _
  | 5 => exact meaningOf_row _ _ _ _ _ _
  | 6 => exact meaningOf_row _ _ _ _ _ _
  | 7 => exact meaningOf_row _ _ _ _ _ _
  | 8 => exact meaningOf_row _ _ _ _ _ _
  | 9 => exact meaningOf_row _ _ _ _ _ _
  | 10 => exact meaningOf_row _ _ _ _ _ _
  | 11 => exact meaningOf_row _ _ _ _ _ _
  | 12 => exact meaningOf_row _ _ _ _ _ _
  | 13 => exact meaningOf_row _ _ _ _ _ _
  | 14 => exact meaningOf_row _ _ _ _ _ _
  | 15 => exact meaningOf_row _ _ _ _ _ _
  | 16 => exact meaningOf_row _ _ _ _ _ _
  | _ + 17 => rfl

/-- As `withWord`, computed. -/
def withWordRun {α : Type} (w : BitVec 32) (bad : DecodeError → α) (good : (State → Outcome) → α) : α :=
  match (f w 0 7).toNat with
  | 0x30 => wordVfp w bad good
  | 0x31 => wordVint w bad good
  | 0x32 => wordVcmp w bad good
  | 0x33 => wordVmove w bad good
  | 0x34 => wordVcvt w bad good
  | 0x35 => wordVred w bad good
  | 0x36 => wordMask w bad good
  | 0x37 => wordSfp w bad good
  | _ => meaningOf (decodeLow w) bad good

@[csimp] theorem withWord_eq_run : @withWord = @withWordRun := by
  funext α w bad good
  unfold withWord withWordRun decode
  split
  · first | exact wordVfp_eq w bad good | (rename_i h; simp only [h]; exact wordVfp_eq w bad good)
  · first | exact wordVint_eq w bad good | (rename_i h; simp only [h]; exact wordVint_eq w bad good)
  · first | exact wordVcmp_eq w bad good | (rename_i h; simp only [h]; exact wordVcmp_eq w bad good)
  · first | exact wordVmove_eq w bad good | (rename_i h; simp only [h]; exact wordVmove_eq w bad good)
  · first | exact wordVcvt_eq w bad good | (rename_i h; simp only [h]; exact wordVcvt_eq w bad good)
  · first | exact wordVred_eq w bad good | (rename_i h; simp only [h]; exact wordVred_eq w bad good)
  · first | exact wordMask_eq w bad good | (rename_i h; simp only [h]; exact wordMask_eq w bad good)
  · first | exact wordSfp_eq w bad good | (rename_i h; simp only [h]; exact wordSfp_eq w bad good)
  · first | rfl | (split <;> first | rfl | contradiction)

end Sys2Proof.Machine
end

