-- ==== Sys2Proof/Machine/Sched.lean ====
section
/-!
DEFINITION. The schedule: what the machine does by itself next. The spec orders events only within a thread and by cycles; the
model takes each as soon as its condition holds, in one fixed order (log 1, log 5).
-/
namespace Sys2Proof.Machine

/-- Whether an event would change anything now: one that is not yet possible answers the state it was given. -/
def changes (s : State) (i : Instr) : Bool :=
  match exec i s with
  | .next s' => decide (s' ≠ s)
  | _ => true

/-- The cycles after its issue in which the schedule ends a head: the least the spec lets it take, by where it goes (R92, R118,
R236; log 5). -/
def Loc.latency : Loc → Nat
  | .bank _ => 10
  | _ => 12

/-- The cycles after its issue in which the schedule ends a vector or tile access. -/
def lanesLatency (lanes : List Lane) : Nat := if lanes.all (fun l => l.loc.latency == 10) then 12 else 16

/-- The event that ends a thread's head, and the cycles after the head's issue when it may. MMA_COMPLETE ends an MLD that met a
suspension cell too: the two events end such a head alike (R235). -/
def Head.ending (t : Nat) (th : Thread) (h : Head) : Nat × Instr :=
  match h.op with
  | .load _ _ _ _ loc _ => (loc.latency, .loadDataReturn t)
  | .store _ _ _ loc _ => (loc.latency, match loc with
    | .control _ _ _ => .controlRegisterWrite t
    | _ => .storeAccept t)
  | .div _ _ done => (done - h.since, .divideComplete t)
  | .vload _ lanes => (lanesLatency lanes, .vectorAccessComplete t)
  | .vstore lanes _ => (lanesLatency lanes, .vectorAccessComplete t)
  | .vstq _ _ _ _ _ => (16, .vectorAccessComplete t)
  | .mma _ _ _ _ => (if (dieOfCore th.core) < 2 then 16 else 64, .mmaComplete t)
  | .mld _ _ _ => (16, .mldMstComplete t)
  | .mst _ _ _ _ => (16, .mldMstComplete t)
  | .cells _ _ _ => (16, .mmaComplete t)
  | .marked _ _ => (16, .mmaComplete t)

/-- Whether an access of a thread waits for the response of another package (R372; log 6). -/
def awaitsRemote (s : State) (t : Nat) (th : Thread) : Bool :=
  (remoteAccess th).isSome && !Config.remoteArrives s.cycle t

/-- Inserts an event by its rank, behind those of the same rank. -/
def byRank (n : Nat) (i : Instr) : List (Nat × Instr) → List (Nat × Instr)
  | [] => [(n, i)]
  | p :: rest => if n < p.1 then (n, i) :: p :: rest else p :: byRank n i rest

/-- How far the port of a core stands from the pointer of the home slice of a location, 0 where it has none (R302). -/
def locRank (s : State) (core : Nat) (loc : Loc) : Nat :=
  match loc with
  | .dram pa => portDistance s core pa
  | _ => 0

/-- The location of the first request of an outstanding head to a home slice. -/
def Head.firstLoc (h : Head) : Loc :=
  let first := fun (lanes : List Lane) => (lanes.head?.map (·.loc)).getD (.bank 0)
  match h.op with
  | .load _ _ _ _ loc _ => loc
  | .store _ _ _ loc _ => loc
  | .vload _ lanes => first lanes
  | .vstore lanes _ => first lanes
  | .vstq _ pa _ _ _ => .dram pa
  | .mst _ _ lanes _ => first lanes
  | _ => .bank 0

/-- The events that may end heads in a cycle, those nearest to the round-robin pointers of their home slices first (R302). -/
def endingEvents (s : State) : List Instr :=
  (s.threads.foldl (fun acc p =>
    match p.2.head with
    | some h =>
      let e := h.ending p.1 p.2
      if s.cycle < h.since + e.1 || awaitsRemote s p.1 p.2 then acc
      else byRank (locRank s p.2.core h.firstLoc) (if (suspendedAccess s p.2).isSome then .evaluationStart p.1 else e.2) acc
    | none => acc) []).map (·.2)

/-- The events of one thread that may be due before the cores issue in a cycle, those that end its head apart. -/
def threadEvents (s : State) (t : Nat) (th : Thread) : List Instr :=
  let halted := clusterHalted s (clusterOfCore th.core)
  let waiting : List Instr := match th.wait with
    | some (.waitm _ (some limit)) => if limit ≤ s.cycle then [.waitmTimeout t] else []
    | _ => []
  let resumes := match th.trapUntil with
    | some c => if c ≤ s.cycle then [.trappingPeriodEnd t] else []
    | none => []
  let saves : List Instr := match th.wait with
    | some (.ctxout _ x _) => [.preemptionSave x]
    | _ => if th.preempt && atBoundary s th && !halted then [.preemptionSave t] else []
  resumes ++ saves
    ++ (if trapDue s th && !halted then [.trapEntry t] else [])
    ++ (if watchdogDue s th then [.watchdogExpiry t] else [])
    ++ (if (remoteAccess th).isSome then [.remoteResponseTimeout t, .haltRemoteTimeout t] else []) ++ waiting

/-- The events of one thread that come after the cores' issues of a cycle. -/
def requestEvents (t : Nat) (th : Thread) : List Instr :=
  match th.wait with
  | some (.broker _ _ _ _) => [.brokerRequest t]
  | _ => []

/-- The atomics and staged records that wait at their home slices, those nearest to each slice's round-robin pointer first (R302), and those
whose response from another package arrives. -/
def sliceEvents (s : State) : List Instr :=
  (s.threads.foldl (fun acc p => match p.2.wait with
    | some (.atom r) =>
      if awaitsRemote s p.1 p.2 then acc else
      byRank (locRank s p.2.core r.loc) (if r.staged then .stagedRecordAccept p.1
        else if (suspendedAccess s p.2).isSome then .evaluationStart p.1 else .sliceAtomicPerform p.1) acc
    | some (.smerge r) =>
      byRank (portDistance s p.2.core (r.blocks.getD 0 0)) (if r.staged then .stagedRecordAccept p.1 else .smergePerform p.1) acc
    | _ => acc) []).map (·.2)

/-- Whether a core has an EMPTY slot and no ready work (R284). -/
def idleCore (s : State) (core : Nat) : Bool :=
  engineRuns s core && !((s.core core).served.any (fun x => hasWork s core x.lctx)) && !hasReserved s core
    && (List.range 16).any (fun k => slotEmpty s (handleOf core k))

/-- The cores of the cluster nearest to a core's cluster, in the order of R284, that has an idle core of its partition, as `idle` says. -/
def nearestIdle (s : State) (core : Nat) (idle : Nat → Bool) : List Nat :=
  let cl := clusterOfCore core
  let c := cl % 36
  let order := (ringOf c).map (fun k => cl / 36 * 36 + k)
    ++ (((List.range 4).filter (· != cl / 36)).map (fun d => (c :: ringOf c).map (fun k => d * 36 + k))).flatten
  match order.find? (fun k => (s.cluster k).partId == (s.cluster cl).partId && (coresOf k).any idle) with
  | some k => coresOf k
  | none => []

/-- The cores whose steal requests the schedule makes: while some deque has a record to steal, those that hold state, and for each context of
its records those of its cluster, or of the nearest cluster with an idle core that may take it where its own has none (R18, R284; log 5). -/
def stealers (s : State) : List Nat :=
  let full := s.cores.filter (fun p => p.2.deque.any (·.free))
  if full.isEmpty then [] else
    (coreList s ++ (full.map (fun p =>
      let own := coresOf (clusterOfCore p.1)
      (((p.2.deque.filter (·.free)).map (·.lctx)).eraseDups.map (fun l =>
        let idle := fun (c : Nat) => idleCore s c && dieAllowed s l c && servesOrCan s c l
        if own.any idle then own else nearestIdle s p.1 idle)).flatten)).flatten).eraseDups.filter (stealDue s)

/-- The events of one core that come after the cores' issues of a cycle. -/
def coreEvents (core : Nat) (c : Core) : List Instr :=
  (if c.held.isEmpty then [] else [.heldMailboxPosting core])
    ++ (if c.fifo.isEmpty then [] else [.copyRequestAccept (clusterOfCore core)])

/-- Whether a meet table has an entry whose window is over, or that has departed long enough (R165). -/
def meetEvents (s : State) (bank : Nat) (t : Table) : List Instr :=
  (if t.entries.any (fun e => e.2.departed.isNone && e.2.kind == .timed && decide (e.2.windowEnd ≤ s.cycle / 16))
    then [.meetWindowEnd bank] else [])
  ++ (if t.entries.any (fun e => match e.2.departed with
      | some c => decide (c / 16 + 256 ≤ s.cycle / 16)
      | none => false) then [.meetEntryFree bank] else [])

/-- The events of the meet tables of one cluster. -/
def tableEvents (s : State) (cluster : Nat) (k : Cluster) : List Instr :=
  (k.banks.map (fun b => match b.2.mode with
    | .meet t => meetEvents s (cluster * 32 + b.1) t
    | _ => [])).flatten

/-- The events of the copy engine and the banks of one cluster that may be due. -/
def clusterEvents (s : State) (cluster : Nat) (k : Cluster) : List Instr :=
  (if (nextJob s cluster false).isSome then [.copyTransfer cluster] else [])
    ++ (if (nextJob s cluster true).isSome then [.copyLoopIteration cluster] else [])
    ++ (k.banks.map (fun b => if b.2.changes.isEmpty then [] else [.bankModeChange (cluster * 32 + b.1)])).flatten

/-- What may be due before the cores issue in a cycle, and between their issues: rotation boundaries, the events of threads and of meet
tables, pre-emption and stealing. -/
def coreCandidates (s : State) : List Instr :=
  (if s.rot ≤ s.cycle / 16 then [.rotationBoundary] else [])
    ++ (s.threads.map (fun p => threadEvents s p.1 p.2)).flatten ++ endingEvents s
    ++ (s.clusters.map (fun p => tableEvents s p.1 p.2)).flatten
    ++ (s.cores.filter (fun p => starvationDue s p.1)).map (fun p => .starvationPreemption p.1)
    ++ (stealers s).map .stealRequest

/-- What the slices, the copy engines, the banks and Helben may do after the cores' issues of a cycle (R262). -/
def engineCandidates (s : State) : List Instr :=
  sliceEvents s ++ (s.threads.map (fun p => requestEvents p.1 p.2)).flatten
    ++ (s.cores.map (fun p => coreEvents p.1 p.2)).flatten
    ++ (s.clusters.map (fun p => clusterEvents s p.1 p.2)).flatten
    ++ (s.launches.filter (fun p => p.2.done)).map (fun p => .launchCompletion p.1)
    ++ (s.helben.halts.filter (fun p => decide (p.2.since + s.helben.haltLim < s.cycle))).map (fun p => .haltLimitExpiry p.1)
    ++ (s.helben.journal.filter (fun j => j.phase == 1)).map (fun j => .launchReplay j.lctx)

/-- The event that comes before the next issue of this cycle, if one is due. -/
def dueBefore (s : State) : Option Instr := (coreCandidates s).find? (changes s)

/-- The event that comes after the issues of this cycle, if one is due. -/
def dueAfter (s : State) : Option Instr := (engineCandidates s).find? (changes s)

/-! ### The end of a cycle -/

/-- The number of a barrier among those of the package. -/
def barrierIndex (cluster id : Nat) : Nat := cluster * 256 + id

/-- The barriers whose phase ends with this cycle, or that a BAREX of this cycle changes (R268), each with its number. -/
def barrierEvents (s : State) : List (Nat × Instr) :=
  (s.clusters.map (fun p => p.2.barriers.map (fun b => (barrierIndex p.1 b.1, Instr.barrierPhaseComplete p.1 b.1)))).flatten
    ++ s.threads.filterMap (fun (p : Nat × Thread) => match p.2.wait with
      | some (.barex _ c i _) => some (barrierIndex c i, Instr.barrierPhaseComplete c i)
      | _ => none)

/-- The lowest barrier not checked in this cycle that its check at the end of the cycle changes: each is checked once (R268). -/
def barrierDue (s : State) : Option (Nat × Instr) :=
  (barrierEvents s).foldl (fun (best : Option (Nat × Instr)) p =>
    if p.1 + 2 ≤ s.phase ∨ (best.map (fun b => decide (b.1 ≤ p.1))).getD false = true ∨ changes s p.2 = false then best
    else some p) none

/-- The limit of a WFI that ends with this cycle, because nothing else has reached it (R133). -/
def timeoutDue (s : State) : Option Instr :=
  (s.threads.find? (fun p => match p.2.wait with
    | some (.wfi _ (some limit) _) => decide (limit ≤ s.cycle) && (wfiDone s p.2).isNone
    | _ => false)).map (fun p => .wfiTimeout p.1)

/-- The end of a cycle: the engines' writes that need wait no longer, the bank ports that copy engines still use (R92), the threads in WFI that something has reached complete (R133, R365), and every core may issue again. -/
def endCycle (s : State) : State := { drainPorts (endWfis (flushLate s)) with cycle := s.cycle + 1, issued := [], phase := 0 }

/-- What comes after the engines' events of a cycle: the barriers, the limits of WFI, and the next cycle. -/
def endPart (s : State) : Outcome :=
  match barrierDue s with
  | some (n, i) => exec i { s with phase := n + 2 }
  | none =>
    match timeoutDue s with
    | some i => exec i s
    | none => .next (endCycle s)

/-- What comes after the cores' issues of a cycle: the leaves of the threads that have ended in it, then the engines (R298). -/
def enginePart (s : State) : Outcome :=
  if !s.ended.isEmpty then .next (closeLeaves s) else
  match dueAfter s with
  | some i => exec i { s with phase := 1 }
  | none => endPart s

end Sys2Proof.Machine
end

