-- ==== Sys2Proof/Machine/Issue.lean ====
section
/-!
DEFINITION. Issue: which thread issues in a cycle (R87 to R91) and what its word does, with the checks of R64 before an
instruction's own and the windows of R53 to R57.
-/
namespace Sys2Proof.Machine

/-- Whether a word passes its decode checks (R64, orders 2 and 3). -/
def decodes (w : BitVec 32) : Bool := withWord w (fun _ => false) (fun _ => true)

/-- The trap of a word that does not decode: EVAL is the word's address (R64). -/
def decodeTrap (e : DecodeError) (pc : Word) : Trap :=
  { cause := match e with
      | .illegalOpcode => .illegalOpcode
      | .reservedField => .reservedField, val := pc }

/-- Whether a thread runs in STRICT rotation (R16, R90). -/
def isStrict (s : State) (th : Thread) : Bool := ((s.launch th.lctx.toNat).map (·.hdr.strict)).getD false

/-- Conditions 4 to 6 of R87 for a thread's next word. A word that cannot be fetched, or does not decode, issues as a trap once
no head is outstanding (R53, R64); one in a line that a copy engine owns is not there yet (R23). -/
def wordReady (s : State) (th : Thread) : Bool :=
  match fetch s th with
  | .error (some _) => th.head.isNone
  | .error none => false
  | .ok r =>
    (match th.head with
      | some _ => match th.window with
        | some w => windowWord r.word (decodes r.word) w.dest == .eligible
        | none => false
      | none => true)
      && (!takesQueue r.word || decide (queueUsed s th.core < 8))

/-- Whether a bound thread is READY (R87); one with a trap to take (R137), a pre-emption to undergo (R145) or a CTXOUT that waits for it
(R130) does not issue before, but for an instruction that TRET re-executes. -/
def ready (s : State) (t : Nat) (th : Thread) : Bool :=
  th.isBound && th.trapUntil.isNone && th.wait.isNone
    && (match th.lastIssue with
      | some c => decide (c + 8 ≤ s.cycle)
      | none => true)
    && th.nextTrap.isNone && ((!th.preempt && (ctxoutOf s t).isNone) || th.redo.isSome) && wordReady s th

/-- The thread that a core issues in this cycle: the STRICT thread whose turn it is, else the first READY OPEN thread from the
pointer (R88, R89, R90). -/
def pick (s : State) (core : Nat) : Option (Nat × Thread) :=
  let at_ := fun (slot : Nat) (strict : Bool) =>
    match s.inSlot (handleOf core slot) with
    | some p => if isStrict s p.2 == strict && ready s p.1 p.2 then some p else none
    | none => none
  match at_ (s.cycle % 16) true with
  | some p => some p
  | none => (List.range 16).findSome? (fun i => at_ (((s.core core).ptr + i) % 16) false)

/-! ### Bank ports (R92) -/

/-- The pointers at which a word accesses memory in its issue cycle, with the bytes at each: those of a load or store, of the lanes of a
vector access, of the operands of an MMA, of the rows of MLD and MST, of a meet table, and of the records and requests that a word reads
(R92, R160, R222, R236, R289). -/
def accessPointers (th : Thread) (w : BitVec 32) : List (Word × Nat) :=
  let a := f w 12 5
  let d := f w 7 4
  let ea := effectivePtrW th a (f w 24 8)
  let lanes := fun (ptrOf : Nat → Word) => (lanesOf th (f w 21 3) ptrOf).map (fun p => (p.2, laneSize p.2))
  let tableOp := fun (n : Nat) => n == 0 || n == 1 || n == 3 || n == 4
  let scalar := fun (size : Nat) => [(effectivePtr th a (f w 21 11) size, size)]
  let code := (f w 22 6).toNat
  match majorOf w with
  | 0x14 | 0x18 | 0x1B => scalar 1
  | 0x15 | 0x19 | 0x1C => scalar 2
  | 0x16 | 0x1A | 0x1D => scalar 4
  | 0x17 | 0x1E => scalar 8
  | 0x1F => [(th.getX a, 8)]
  | 0x24 => if tableOp code then [(th.getX a, 16)] else []
  | 0x25 => if code ≤ 2 || (code == 3 && th.getX a != 0) then [(th.getX a, 64)] else if code == 4 then [(th.getX a, 128)] else []
  | 0x27 => if code == 1 then [(th.getX a, 32)] else []
  | 0x29 => if code == 6 then [(th.getX a, 4864)] else []
  | 0x38 | 0x39 => lanes (denseLane ea)
  | 0x3A | 0x3B => lanes (fun i => ea + BitVec.ofNat 64 i * strideOf th a)
  | 0x3C | 0x3D => lanes (fun i => ea + laneOffset th d i)
  | 0x40 => [(th.getX a, 2048), (th.getX (f w 17 5), 2048)]
  | 0x41 =>
    let xb := th.getX (f w 17 5)
    let z := codeSize (xb.extractLsb' 0 3).toNat
    if f w 24 4 == 4 || f w 24 4 == 5 then
      (List.range 32).map (fun i => (th.getX a + BitVec.ofNat 64 i * (if xb.extractLsb' 32 32 = 0 then BitVec.ofNat 64 (32 * z)
        else (xb.extractLsb' 32 32).zeroExtend 64), 32 * z))
    else []
  | _ => []

/-- The banks, not in CACHE mode, whose ports a thread's word requests, with the cycles for which it holds each: one for every 128 bytes
(R92, R222, R236). -/
def banksWanted (s : State) (th : Thread) (w : BitVec 32) : List (Nat × Nat) :=
  let l := (accessPointers th w).filterMap (fun p =>
    match spaceOf (cxOf s th) (clusterOfCore th.core) .load false p.1 with
    | .ok (.bank c b _ _) => if (s.bank (c * 32 + b)).mode = .cache then none else some (c * 32 + b, p.2)
    | _ => none)
  ((l.map (·.1)).eraseDups).map (fun b => (b, max 1 ((((l.filter (fun p => p.1 == b)).map (·.2)).foldl (· + ·) 0 + 127) / 128)))

/-- A core's place at the port of a bank. -/
def corePlace (bank core : Nat) : Nat := portPlace bank (clusterOfCore core) (some core)

/-- Whether a copy engine that can move a job through a bank's port, or that has accesses left to make there, stands before a core (R92). -/
def engineBefore (s : State) (bank core : Nat) : Bool :=
  let ahead := fun (place : Nat) => decide (bankDistance s bank place < bankDistance s bank (corePlace bank core))
  (s.bank bank).engines.any (fun p => ahead p.1)
  || s.clusters.any (fun p => !p.2.jobs.isEmpty && ahead (portPlace bank p.1 none)
    && ([nextJob s p.1 false, nextJob s p.1 true].any (fun j => (j.map (fun x => x.banks.contains bank)).getD false)))

/-- Whether a core loses a port that its word requests (R92). -/
def losesPort (s : State) (core : Nat) (banks : List Nat) : Bool :=
  banks.any (fun b => portBusy s b || engineBefore s b core)

/-! ### The order of the issues of one cycle -/

/-- The word at a thread's PC, 0 where it cannot be fetched. -/
def nextWord (s : State) (th : Thread) : BitVec 32 :=
  match fetch s th with
  | .ok r => r.word
  | .error _ => 0

/-- The rank of a core's issue among those of one cycle: words that request no bank port by core; those that do, by the lowest bank and
their place at its port (R92); and BAREX, which is only queued, before all, because it traps a BARCFG of the cycle (R267). -/
def issueRank (s : State) (core : Nat) (th : Thread) : Nat × Nat :=
  let w := nextWord s th
  if majorOf w = 0x26 ∧ f w 22 6 = 8 then (0, 0)
  else match (banksWanted s th w).map (·.1) with
    | [] => (1, 0)
    | b :: rest =>
      let bank := rest.foldl min b
      (2, bank * 68 + bankDistance s bank (corePlace bank core))

/-- The core that issues next in this cycle, with its thread (log 5). -/
def nextIssue (s : State) : Option (Nat × Nat × Thread) :=
  ((coreList s).foldl (fun (best : Option ((Nat × Nat × Nat) × Nat × Thread)) c =>
    if s.issued.contains c ∨ coreRuns s c = false then best else
    match pick s c with
    | none => best
    | some p =>
      let r := issueRank s c p.2
      let key := (r.1, r.2, c)
      match best with
      | none => some (key, p)
      | some b =>
        if b.1.1 < r.1 ∨ (b.1.1 = r.1 ∧ (b.1.2.1 < r.2 ∨ (b.1.2.1 = r.2 ∧ b.1.2.2 ≤ c))) then best else some (key, p)) none).map
    (fun b => (b.1.2.2, b.2))

/-- The state in which a thread's word runs: the issue is noted, and the core's pointer moves past an OPEN slot. -/
def noteIssue (s : State) (core t : Nat) (th : Thread) : State :=
  let c := s.core core
  let s1 := { s with cur := t, issued := core :: s.issued }
  let s2 := if isStrict s th then s1 else s1.putCore core { c with ptr := (slotOfHandle th.place.handle + 1) % 16 }
  s2.putThread t { th with lastIssue := some s.cycle }

/-- What a window does with a word that issues (R53, R55): it admits it, traps it as a hazard, or ends. -/
def inWindow (s : State) (w : BitVec 32) : Except Trap State :=
  match s.current with
  | none => .ok s
  | some th =>
    match th.window with
    | none => .ok s
    | some win =>
      match windowWord w true win.dest with
      | .eligible => .ok s
      | .hazard => .error { cause := .lookaheadHazard, val := win.headPc }
      | .ends => .ok (s.putThread s.cur th.endWindow)

/-- The current thread's word: its decode traps, its window, then its meaning (R64). -/
def runWord (s : State) (w : BitVec 32) : Outcome :=
  withWord w (fun e => .next (s.takeTrap s.cur (decodeTrap e ((s.current.map (·.pc)).getD 0))))
    (fun run => match inWindow s w with
      | .ok s' => run s'
      | .error tr => .next (s.takeTrap s.cur tr))

/-- The kind of the accesses at a word's pointers. -/
def accessKind (w : BitVec 32) : AccessKind :=
  match majorOf w with
  | 0x1B | 0x1C | 0x1D | 0x1E | 0x1F | 0x39 | 0x3B | 0x3D => .store
  | 0x41 => if f w 24 4 == 5 then .store else .load
  | _ => .load

/-- What a word's accesses must be aligned to, from the bytes at one of its pointers (R116, R232, R239). -/
def accessAlign (w : BitVec 32) (n : Nat) : Nat :=
  match majorOf w with
  | 0x40 => 64
  | 0x41 => n / 32
  | _ => min n 8

/-- The TLB entries that refused an access which a new walk admits are replaced, also where the instruction then traps for another reason
(R155): those of the pointers, each with its alignment, before the first that fails before its translation or that the page table refuses. -/
def replaceRefusing (s : State) (th : Thread) (kind : AccessKind) : List (Word × Nat) → State
  | [] => s
  | (p, align) :: rest =>
    match spaceOf (cxOf s th) (clusterOfCore th.core) kind false p with
    | .error _ => s
    | .ok _ =>
      if p.toNat % align ≠ 0 then s else
      match globalOf th.privbase p with
      | none => replaceRefusing s th kind rest
      | some va =>
        let cx := cxOf s th
        match tlbFind s th.core cx.asid va with
        | some e =>
          if admits cx.mode kind e.pte then replaceRefusing s th kind rest
          else match walkHit s cx kind va p with
            | .ok h => replaceRefusing (touch s (some th.core) kind h) th kind rest
            | .error _ => s
        | none =>
          match walkHit s cx kind va p with
          | .ok _ => replaceRefusing s th kind rest
          | .error _ => s

/-- Whether a thread has taken a trap of its instruction in a cycle whose cause is not one that is found before every access (R64, R235,
R239). -/
def trappedInAccess (th : Thread) (cycle : Nat) : Bool :=
  let code := (if th.entered == .user then th.ucause else th.cause).toNat
  th.trapUntil == some (cycle + 16)
    && [Cause.illegalOpcode, .reservedField, .lookaheadHazard, .matrixTileNotHeld, .matrixFormatInvalid].all (fun c => c.code != code)

/-- A state in which a thread's word has run: where it has trapped, the entries that its accesses found stale are replaced (R155). -/
def afterTrap (s : State) (t : Nat) (th : Thread) (w : BitVec 32) (o : Outcome) : Outcome :=
  match o with
  | .next u =>
    if !(accessPointers th w).isEmpty && (u.thread t).any (fun x => trappedInAccess x s.cycle && x.instret == th.instret) then
      .next (replaceRefusing u th (accessKind w) ((accessPointers th w).map (fun p => (p.1, accessAlign w p.2))))
    else .next u
  | o => o

/-- A thread issues its next word. Where it loses a bank port it is withdrawn: only its issue is spent (R92). -/
def issue (s : State) (core t : Nat) (th : Thread) : Outcome :=
  let s1 := noteIssue s core t th
  match fetch s1 th with
  | .error none => .next s1
  | .error (some tr) => .next (s1.takeTrap t tr)
  | .ok r =>
    let banks := banksWanted s1 th r.word
    if losesPort s1 core (banks.map (·.1)) then .next s1
    else afterTrap s1 t th r.word
      (runWord (banks.foldl (fun st b => grantPort st b.1 (corePlace b.1 core) b.2) (touch s1 (some core) .fetch r.hit)) r.word)

/-- What the machine does by itself next (log 1, log 5): before the cores' issues of the cycle, an event that is due, else one core's
issue; then the engines; then the end of the cycle. -/
def ownStep (s : State) : Outcome :=
  match s.phase with
  | 0 =>
    match dueBefore s with
    | some i => exec i s
    | none =>
      match nextIssue s with
      | some (core, t, th) => issue s core t th
      | none => enginePart s
  | 1 => enginePart s
  | _ => endPart s

end Sys2Proof.Machine
end

