-- ==== Sys2Proof/Machine/Step.lean ====
section
/-!
DEFINITION. The step, and the placing of one instruction where the step fetches next (log 1).
-/
namespace Sys2Proof.Machine

/-- One step: what the outside world or an engine does next according to the agenda, else what the machine does by itself. An
encoded instruction in the agenda stands for a step in which nothing comes from outside: instructions come from memory. -/
def step (s : State) : Host.Outcome State Fault Refusal :=
  match s.agenda with
  | i :: rest =>
    if (encode i).isSome then ownStep { s with agenda := rest } else exec i { s with agenda := rest }
  | [] => ownStep s

/-- The thread that stands in slot 0 of core 0 to run a placed instruction: a supervisor thread of context 0 at address 0. -/
def placedThread (cycle : Nat) : Thread := { Thread.reset (.slot 0) 0 cycle with mode := .supervisor }

/-- Core 0 as it serves a placed instruction: context 0, and a TLB entry that maps page 0 to physical page 0 for every access. -/
def placedCore (rot : Nat) : Core :=
  let entry : TlbEntry := { asid := 0, page := 0, large := false, pte := 0xCF, pteAddr := 0 }
  { Core.reset with served := [{ lctx := 0, idx := 0, csrs := CtxCsrs.reset, deficit := 0, starved := 0 }], tlb := [entry],
                    asked := rot, chosen := rot }

/-- The state with one instruction placed where the step fetches next: its four bytes at address 0, one supervisor thread bound
there, and nothing else that runs or is due. It stands for the load of a program from outside (log 1). -/
def State.withFetchWord (s : State) (nbits w : Nat) : State :=
  let rot := s.cycle / 16 + 1
  { s with agenda := [], issued := [], phase := 0, rot := rot, threads := [(0, placedThread s.cycle)], cores := [(0, placedCore rot)],
           clusters := [], dies := [], launches := [], bad := [], badSram := [], mem := s.mem.writeLE 0 4 (w % 2 ^ nbits),
           helben := { s.helben with halts := [], journal := [] } }

end Sys2Proof.Machine
end

