-- ==== Sys2Proof/Safety.lean ====
section
/-!
DEFINITION. Safe runs: the claims of the package are about states that steps reach and about invariants that steps keep.
-/
namespace Sys2Proof

/-- The machine after n steps from a state, or how it stopped. -/
def runFor : Nat → Machine.State → Machine.Outcome
  | 0, s => .next s
  | n + 1, s =>
    match Machine.step s with
    | .next s' => runFor n s'
    | o => o

/-- A run of n steps is safe: it neither faults nor is refused. -/
def safeFor (n : Nat) (s : Machine.State) : Prop := ∃ t, runFor n s = .next t

/-- A property that every step keeps. -/
def keptByStep (inv : Machine.State → Prop) : Prop :=
  ∀ s t, inv s → Machine.step s = .next t → inv t

end Sys2Proof
end

