-- ==== Sys2Proof/Certificates/Slice0/Obligations.lean ====
section
/-!
DEFINITION. The statements about the model. Each says what one group of rules of the spec requires of `exec`, `step`, the
decoder or the shared operations; the definitions before them name the shapes of next state that they share.
-/
namespace Sys2Proof.Machine

/-- The instruction at the PC retires with the thread changed to `th`, and the next one follows it. Under an outstanding head it is
one of its shadows. -/
def retires (s : State) (th : Thread) : Outcome := .next (s.putThread s.cur (th.retire s.cycle).countShadow)

/-- The jump at the PC retires with the thread changed to `th` and goes on at `target`; it ends any window. -/
def jumps (s : State) (th : Thread) (target : Word) : Outcome := .next (s.putThread s.cur (th.retireTo s.cycle target).endWindow)

/-- The instruction at the PC retires with the package changed to `s` and the thread to `th`; it ends any window. -/
def ends (s : State) (th : Thread) : Outcome := .next (s.putThread s.cur (th.retire s.cycle).endWindow)

/-- Element i of a vector register whose elements are w bits wide (R203). -/
def element (v : VWord) (w i : Nat) : BitVec w := v.extractLsb' (w * i) w

/-- The OR of the flags of the elements below n. -/
def flagsBelow (fl : Nat → BitVec 5) : Nat → BitVec 5
  | 0 => 0
  | n + 1 => flagsBelow fl n ||| fl n

/-- An instruction that may raise flags, `fl j` by its element j of n. With none of them enabled in FTRAP it retires with a thread
that `put` describes, FFLAGS gains the flags, and FLAGORG becomes its address if FFLAGS was all zero and one was raised
(R95). With one enabled it traps (R140): the cause of the lowest enabled flag raised; EVAL [4:0] every flag raised, EVAL
[31:16] the lowest element that raised an enabled one. Under an outstanding head the trap waits, so that case is left out. -/
def RaisesOrTraps (s : State) (th : Thread) (i : Instr) (n : Nat) (fl : Nat → BitVec 5) (put : Thread → Prop) : Prop :=
  let all := flagsBelow fl n
  (all &&& th.ftrap = 0 →
    ∃ u, put u ∧ exec i s = retires s
      { u with fflags := th.fflags ||| all, flagorg := if th.fflags = 0 ∧ all ≠ 0 then th.pc else th.flagorg })
  ∧ (all &&& th.ftrap ≠ 0 → th.head = none →
    ∃ k c, k < n ∧ fl k &&& th.ftrap ≠ 0 ∧ (∀ j, j < k → fl j &&& th.ftrap = 0)
      ∧ c < 5 ∧ (all &&& th.ftrap).getLsbD c = true ∧ (∀ j, j < c → (all &&& th.ftrap).getLsbD j = false)
      ∧ ∃ cause, Cause.code cause = 10 + c
        ∧ exec i s = .next (s.takeTrap s.cur { cause := cause, val := BitVec.ofNat 64 (all.toNat + k * 65536) }))

/-- The format of a floating-point element type and its width, by its code: FP32, BF16, FP16 (R61). -/
def FloatType (ty : BitVec 4) (F : Fmt) (w : Nat) : Prop :=
  ty = 0 ∧ F = fp32 ∧ w = 32 ∨ ty = 1 ∧ F = bf16 ∧ w = 16 ∨ ty = 2 ∧ F = fp16 ∧ w = 16

/-- The width of an integer element type by its code: INT32, INT16, INT8 (R61). -/
def IntType (ty : BitVec 4) (w : Nat) : Prop := ty = 3 ∧ w = 32 ∨ ty = 4 ∧ w = 16 ∨ ty = 5 ∧ w = 8

/-- The keys of a table rise. -/
def rising {α : Type} (m : SMap α) : Prop := (m.map (fun p => p.1)).Pairwise (fun a b => a < b)

/-- The tables of a state are in their canonical form: the memories as `Memory.wf` says, and the keys of the threads, the tags, the
evaluation entries, the launches and the halts rise. Every step keeps it (TablesStayCanonical). -/
def Tidy (s : State) : Prop :=
  s.mem.wf = true ∧ s.sram.wf = true ∧ s.host.msix.wf = true ∧ rising s.threads ∧ rising s.tags ∧ rising s.evals
    ∧ rising s.launches ∧ rising s.helben.halts

/-- In the state u the thread `th` that was current in s waits for `w`, bound or saved, with its registers and PC as they were. -/
def waitsIn (s u : State) (th : Thread) (w : Wait) : Prop :=
  ∃ x, u.thread s.cur = some x ∧ x.wait = some w ∧ x.x = th.x ∧ x.v = th.v ∧ x.m = th.m ∧ x.pc = th.pc
    ∧ x.instret = th.instret ∧ x.place.handle = th.place.handle

/-! ### Exact values and one rounding -/

/-- The exact number that a finite value stands for. -/
def exactOf : FVal → ℚ
  | .fin neg m e => (if neg then -1 else 1) * m * (2 : ℚ) ^ e
  | _ => 0

/-- The value with the other sign. -/
def opposite : FVal → FVal
  | .nan s => .nan s
  | .inf neg => .inf (!neg)
  | .fin neg m e => .fin (!neg) m e

/-- The numbers of R188's grid: those of the format with its exponent range unbounded above, and unbounded below too where `low` is
none; else in units of at least 2^low, the lowest bit of a subnormal. -/
def Grid (F : Fmt) (low : Option Int) (y : ℚ) : Prop :=
  ∃ k q : Int, k.natAbs < 2 ^ (F.mbits + 1) ∧ (∀ l, low = some l → l ≤ q) ∧ y = k * (2 : ℚ) ^ q

/-- The lowest fraction bit of a number of the grid is 0. -/
def EvenIn (F : Fmt) (low : Option Int) (y : ℚ) : Prop :=
  ∃ k q : Int, k % 2 = 0 ∧ k.natAbs < 2 ^ (F.mbits + 1) ∧ (low = some q ∨ 2 ^ F.mbits ≤ k.natAbs) ∧ (∀ l, low = some l → l ≤ q)
    ∧ y = k * (2 : ℚ) ^ q

/-- y is the number of the grid that the mode chooses for x (R188): the nearest, and on a tie the even one; the nearest not greater in
magnitude; the nearest not greater; the nearest not less. -/
def Chosen (F : Fmt) (low : Option Int) (mode : BitVec 2) (x : ℝ) (y : ℚ) : Prop :=
  Grid F low y ∧
    (mode = 0 → (∀ z, Grid F low z → |(y : ℝ) - x| ≤ |(z : ℝ) - x|)
      ∧ ((∃ z, z ≠ y ∧ Grid F low z ∧ |(z : ℝ) - x| = |(y : ℝ) - x|) → EvenIn F low y))
    ∧ (mode = 1 → |(y : ℝ)| ≤ |x| ∧ 0 ≤ (y : ℝ) * x ∧ ∀ z, Grid F low z → |(z : ℝ)| ≤ |x| → |z| ≤ |y|)
    ∧ (mode = 2 → (y : ℝ) ≤ x ∧ ∀ z, Grid F low z → (z : ℝ) ≤ x → z ≤ y)
    ∧ (mode = 3 → x ≤ (y : ℝ) ∧ ∀ z, Grid F low z → x ≤ (z : ℝ) → y ≤ z)

/-- r is the nonzero exact number x rounded once to the format, with its flags: the number y chosen under the mode and, above the
largest finite value, the overflow of R190, or the largest finite value where the operation narrows (R193). NX where y is
not x; UF too where the result is tiny, as t, rounded with no lower bound on the exponent, says (R191). Flags: UF 8, NX 16, OF with
NX 20. -/
def RoundsTo (F : Fmt) (mode : BitVec 2) (narrows : Bool) (x : ℝ) (r : FRes) : Prop :=
  ∃ (neg : Bool) (y t : ℚ), (neg = true ↔ x < 0) ∧ Chosen F (some F.low) mode x y ∧ Chosen F none mode x t
    ∧ (exactOf (F.decode F.maxFinite) < |y| →
      r = (if !narrows && (mode == 0 || mode == (if neg then 2 else 3)) then F.infinity neg else F.sign neg F.maxFinite, 20))
    ∧ (|y| ≤ exactOf (F.decode F.maxFinite) →
      r.1 < 2 ^ F.bits ∧ (∃ m e, F.decode r.1 = .fin neg m e ∧ exactOf (.fin neg m e) = y)
      ∧ ((y : ℝ) = x → r.2 = 0)
      ∧ ((y : ℝ) ≠ x → r.2 = if |t| < (2 : ℚ) ^ (1 - (F.bias : Int)) then 24 else 16))

/-- r is the sum of two values in a format: exact, then rounded once; the special values and the sign of an exact zero by R184, R189
and R192. -/
def SumsTo (F : Fmt) (mode : BitVec 2) (A B : FVal) (r : FRes) : Prop :=
  match A, B with
  | .nan s, .nan t => r = (F.canonicalNaN, if s || t then 1 else 0)
  | .nan s, _ => r = (F.canonicalNaN, if s then 1 else 0)
  | _, .nan t => r = (F.canonicalNaN, if t then 1 else 0)
  | .inf n, .inf k => r = if n = k then (F.infinity n, 0) else (F.canonicalNaN, 1)
  | .inf n, .fin _ _ _ => r = (F.infinity n, 0)
  | .fin _ _ _, .inf k => r = (F.infinity k, 0)
  | .fin n m e, .fin k p g =>
    let x := exactOf (.fin n m e) + exactOf (.fin k p g)
    (x = 0 → r = (F.sign (n && k || n != k && mode == 2) 0, 0)) ∧ (x ≠ 0 → RoundsTo F mode false (x : ℝ) r)

/-- The exact product of two values; none where it raises NV (R192): a signalling NaN, or 0 × ∞. -/
def exactProduct : FVal → FVal → Option FVal
  | .nan s, .nan t => if s || t then none else some (.nan false)
  | .nan s, _ => if s then none else some (.nan false)
  | _, .nan t => if t then none else some (.nan false)
  | .inf n, .inf k => some (.inf (n != k))
  | .inf n, .fin k p _ => if p = 0 then none else some (.inf (n != k))
  | .fin n m _, .inf k => if m = 0 then none else some (.inf (n != k))
  | .fin n m e, .fin k p g => some (.fin (n != k) (m * p) (e + g))

/-- r is an exact value in a format, rounded once; none stands for NV (R192). -/
def ResultIs (F : Fmt) (mode : BitVec 2) (v : Option FVal) (r : FRes) : Prop :=
  match v with
  | none => r = (F.canonicalNaN, 1)
  | some (.nan _) => r = (F.canonicalNaN, 0)
  | some (.inf n) => r = (F.infinity n, 0)
  | some (.fin n m e) =>
    (m = 0 → r = (F.sign n 0, 0)) ∧ (m ≠ 0 → RoundsTo F mode false (exactOf (.fin n m e) : ℝ) r)

/-- r is a value narrowed to a format: R193's rows in their order. -/
def NarrowsTo (F : Fmt) (mode : BitVec 2) (v : FVal) (r : FRes) : Prop :=
  match v with
  | .nan s => r = (F.canonicalNaN, if s then 1 else 0)
  | .inf n => r = (F.sign n F.maxFinite, 20)
  | .fin n m e => (m = 0 → r = (F.sign n 0, 0)) ∧ (m ≠ 0 → RoundsTo F mode true (exactOf (.fin n m e) : ℝ) r)

/-- z is the integer that the mode chooses for x (R188, R193). -/
def ChosenInt (mode : BitVec 2) (x : ℚ) (z : Int) : Prop :=
  (mode = 0 → |(z : ℚ) - x| ≤ 1 / 2 ∧ (|(z : ℚ) - x| = 1 / 2 → z % 2 = 0))
  ∧ (mode = 1 → |(z : ℚ)| ≤ |x| ∧ |x| < |(z : ℚ)| + 1 ∧ 0 ≤ z * x)
  ∧ (mode = 2 → (z : ℚ) ≤ x ∧ x < z + 1) ∧ (mode = 3 → (z : ℚ) - 1 < x ∧ x ≤ z)

/-- r is an FP32 lane quantised by an FP32 scale as VSTQ stores it (R223): the exact quotient as SatE4M3 under RNE. -/
def Quantised (scale v : FVal) (r : FRes) : Prop :=
  match scale, v with
  | .fin false (p + 1) g, .fin n m e =>
    (m = 0 → r = (e4m3.sign n 0, 0))
    ∧ (m ≠ 0 → RoundsTo e4m3 0 true ((exactOf (.fin n m e) / exactOf (.fin false (p + 1) g) : ℚ) : ℝ) r)
  | .fin false (_ + 1) _, .nan s => r = (0x7F, if s then 1 else 0)
  | .fin false (_ + 1) _, .inf n => r = (e4m3.sign n e4m3.maxFinite, 20)
  | _, _ => r = (0x7F, 1)

/-- r is one element of a float MMA (R234): c, none in set mode, and the k products of A and B, with their signs turned where `minus`,
summed exactly and rounded once to FP40. NaNs, infinities and exact zeros by its four steps. -/
def TileElement (rm : BitVec 2) (minus : Bool) (c : Option FVal) (k : Nat) (A B : Nat → FVal) (r : FRes) : Prop :=
  let addend := fun v => c = some v
    ∨ ∃ i p, i < k ∧ exactProduct (A i) (B i) = some p ∧ v = if minus then opposite p else p
  let nv := c = some (.nan true) ∨ (∃ i, i < k ∧ exactProduct (A i) (B i) = none) ∨ (addend (.inf false) ∧ addend (.inf true))
  let nan := nv ∨ addend (.nan false)
  (nan → r.1 = fp40.canonicalNaN ∧ (nv → r.2 = 1) ∧ (¬ nv → r.2 = 0))
  ∧ (∀ neg, ¬ nan → addend (.inf neg) → r = (fp40.infinity neg, 0))
  ∧ (¬ nan → (∀ neg, ¬ addend (.inf neg)) →
    let x : ℚ := (match c with | some v => exactOf v | none => 0)
      + (if minus then -1 else 1) * ((List.range k).map (fun i => exactOf (A i) * exactOf (B i))).sum
    (x ≠ 0 → RoundsTo fp40 rm false (x : ℝ) r)
    ∧ (x = 0 → r.2 = 0 ∧ ∃ neg, r.1 = fp40.sign neg 0 ∧ (neg = true ↔ rm = 2 ∨ ∀ v, addend v → ∃ m e, v = .fin true m e)))

/-- MXCNT's counts hold how many of n elements raised each flag: NV in [15:0], OF in [31:16], UF in [47:32] and NX in [63:48]
(R231). -/
def CountsAre (counts : Word) (n : Nat) (fl : Nat → BitVec 5) : Prop :=
  ∀ p ∈ ([(0, 0), (16, 2), (32, 3), (48, 4)] : List (Nat × Nat)),
    (counts.extractLsb' p.1 16).toNat = (List.range n).countP (fun i => (fl i).getLsbD p.2)

/-! ### Mint blocks -/

/-- The token at a bit of a block's stream under code table t (R198): its value z, which is the exponent itself under table 0, and how
many bits it has. -/
def Token (t : Nat) (bit : Nat → Bool) (at_ z len : Nat) : Prop :=
  let b := fun i => if bit (at_ + i) then 1 else 0
  let ones := fun q => (∀ i, i < q → bit (at_ + i) = true)
  match t with
  | 0 => len = 4 ∧ z = 8 * b 0 + 4 * b 1 + 2 * b 2 + b 3
  | 1 => ∃ q, q < 8 ∧ ones q ∧ bit (at_ + q) = false ∧ len = q + 2 ∧ z = 2 * q + b (q + 1)
  | 2 => ∃ q, q < 4 ∧ ones q ∧ bit (at_ + q) = false ∧ len = q + 3 ∧ z = 4 * q + 2 * b (q + 1) + b (q + 2)
  | _ => (∃ q, q < 8 ∧ ones q ∧ bit (at_ + q) = false ∧ len = q + 1 ∧ z = q)
    ∨ (ones 8 ∧ len = 11 ∧ z = 8 + 4 * b 8 + 2 * b 9 + b 10)

/-- The 32 elements of a Mint block whose limit lies `size` bytes past its start (R197 to R200). A block is malformed when nothing
meets this. -/
def BlockDecodes (byte : Nat → Nat) (size : Nat) (e : Nat → FVal) : Prop :=
  let bit := fun i => byte (18 + i / 8) / 2 ^ (i % 8) % 2 == 1
  let t := byte 1 / 16 % 4
  let pivot := byte 1 % 16
  18 ≤ size ∧ byte 1 < 64
    ∧ (byte 0 = 255 → ∀ k, k < 32 → e k = .nan false)
    ∧ (byte 0 ≠ 255 → ∃ at_ z : Nat → Nat, at_ 0 = 0 ∧ 144 + at_ 32 ≤ 8 * size ∧ ∀ k, k < 32 →
      Token t bit (at_ k) (z k) (at_ (k + 1) - at_ k) ∧ at_ k ≤ at_ (k + 1)
      ∧ (let nibble := byte (2 + k / 2) / 16 ^ (k % 2) % 16
        let d : Int := if z k % 2 = 0 then (z k / 2 : Nat) else -(((z k + 1) / 2 : Nat) : Int)
        let exponent := if t = 0 then z k else ((pivot + d) % 16).toNat
        e k = match e4m3.decode (nibble / 8 * 128 + exponent * 8 + nibble % 8) with
          | .fin neg m g => .fin neg m (g + byte 0 - 127)
          | _ => .nan false))

/-! ### The fixed orders of reductions and scans -/

/-- What two nodes of R213's tree give, with the flags raised: absent ones pass the other by, a NaN as the canonical one. -/
def combine (F : Fmt) (op : Nat → Nat → FRes) : Option Nat → Option Nat → Option Nat × BitVec 5
  | none, none => (none, 0)
  | some x, some y => (some (op x y).1, (op x y).2)
  | some x, none =>
    if (F.decode x).isNaN then (some F.canonicalNaN, if (F.decode x).isSignalling then 1 else 0) else (some x, 0)
  | none, some y =>
    if (F.decode y).isNaN then (some F.canonicalNaN, if (F.decode y).isSignalling then 1 else 0) else (some y, 0)

/-- Node j of a level of R213's tree. -/
def treeNode (F : Fmt) (op : Nat → Nat → FRes) (leaf : Nat → Option Nat) : Nat → Nat → Option Nat
  | 0, j => leaf j
  | l + 1, j => (combine F op (treeNode F op leaf l (2 * j)) (treeNode F op leaf l (2 * j + 1))).1

/-- R214's running sum before element i. -/
def runBefore (F : Fmt) (add : Nat → Nat → FRes) (on : Nat → Bool) (A : Nat → Nat) : Nat → Option Nat
  | 0 => none
  | i + 1 => if on i then (combine F add (runBefore F add on A i) (some (A i))).1 else runBefore F add on A i

/-! ### Waits that end -/

/-- The thread x once its wait of a park kind has ended, with the registers of y: the waiting instruction has retired, and a saved thread
has its wake pending (R99, R145). -/
def resumed (s : State) (x y : Thread) (kind : Nat) : Thread :=
  { y.retire s.cycle with wait := none, wake := !x.isBound, kind := kind, again := false }

/-- Whether a thread waits for a message of a handle. -/
def AwaitsMail (x : Thread) (h : Nat) : Prop :=
  x.place.handle = h ∧ ((∃ d, x.wait = some (.recv d)) ∨ (∃ d l, x.wait = some (.waitm d l)) ∨ ∃ d l r, x.wait = some (.wfi d l r))

/-- In u a message has reached the mailbox of a core of s (R265, R133): it lies there behind the others, and a thread of its slot that
waits for one goes on: RECV with the oldest entry of the slot, which leaves the mailbox, WAITM with their count; a WFI has
been reached by reason 0. -/
def Delivered (s u : State) (core : Nat) (m : Mail) : Prop :=
  let h := handleOf core m.slot
  let box := (s.core core).mailbox ++ [m]
  let holds := fun (l : List Mail) => (u.core core).mailbox = l
  u.sram = s.sram ∧ u.clusters = s.clusters ∧ u.launches = s.launches ∧ (∀ c, c ≠ core → u.core c = s.core c)
  ∧ ((∀ p ∈ s.threads, ¬ AwaitsMail p.2 h) → u.threads = s.threads ∧ u.mem = s.mem ∧ holds box)
  ∧ ∀ t x, s.thread t = some x → x.place.handle = h → (∀ p ∈ s.threads, p.1 ≠ t → ¬ AwaitsMail p.2 h) →
    (∀ d before o after, x.wait = some (.recv d) → box = before ++ o :: after → o.slot = m.slot → (∀ y ∈ before, y.slot ≠ m.slot) →
      u.thread t = some (resumed s x ((x.setX d o.m0).setX (d + 1) o.m1) 2) ∧ holds (before ++ after))
    ∧ (∀ d l, x.wait = some (.waitm d l) →
      u.thread t = some (resumed s x (x.setX d (BitVec.ofNat 64 (box.countP (fun y => y.slot == m.slot)))) 2) ∧ holds box)
    ∧ (∀ d l r, x.wait = some (.wfi d l r) → u.thread t = some { x with wait := some (.wfi d l (0 :: r)) } ∧ holds box)

/-! ### Meet entries that depart -/

/-- The owner of a departing entry, if it waits for it, goes on in u with the state of R168 and the status of R167; on a multiplicity of
2^32 or more it has MEET_MULT_OVERFLOW to take instead of retiring (R174). -/
def OwnerGoesOn (s u : State) (n idx : Nat) (e : MeetEntry) (cut : Bool) : Prop :=
  ∀ th, s.thread e.owner = some th → th.wait = some (.meet e.d n idx) →
    ∃ x, u.thread e.owner = some x ∧ x.wait = none ∧ x.mult = BitVec.ofNat 32 (min e.mult 0xFFFFFFFF) ∧ x.wid = e.wid
      ∧ x.widself = th.widself ∧ x.fflags = e.flags ∧ x.flagorg = (match e.org with | some o => o.2 | none => th.flagorg)
      ∧ (∀ r, r ≠ 0 → x.getX r = if r = e.d then (if e.merged then 1 else 0) + (if e.collision then 2 else 0) + (if cut then 16 else 0)
        else if th.live.getLsbD r.toNat then th.getX r else 0)
      ∧ x.v = Vector.replicate 16 0 ∧ x.m = Vector.replicate 8 0 ∧ x.uepc = 0 ∧ x.ucause = 0 ∧ x.uval = 0 ∧ x.uskip = 0
      ∧ (∀ c, c < 4 → e.counts.length = 4 → x.mxcnt.extractLsb' (16 * c) 16 = BitVec.ofNat 16 (min (e.counts.getD c 0) 0xFFFF))
      ∧ (e.mult < 2 ^ 32 → x.instret = th.instret + 1 ∧ x.pc = th.redo.getD (th.pc + 4) ∧ x.pending = th.pending)
      ∧ (2 ^ 32 ≤ e.mult → x.instret = th.instret ∧ x.pc = th.pc
        ∧ x.pending = th.pending ++ [{ cause := .meetMultOverflow, val := BitVec.ofNat 64 e.mult }])

/-- How many records a member log still has room for before the end of its bank (R171). -/
def logRoom (l : MeetLog) : Nat := ((l.start / 2 ^ 17 + 1) * 2 ^ 17 - l.start) / 16 - l.count

/-- A member log after k more records: those without room are dropped and it is marked lost (R171). -/
def logAfter (log : Option MeetLog) (k : Nat) : Option MeetLog :=
  log.map (fun l => { l with count := l.count + min k (logRoom l), lost := l.lost || decide (logRoom l < k) })

/-- In u the departure records of entries stand in the member log of a table, in order, and no other byte of SRAM differs from s
(R171); while the log's bank has a mode change in progress they wait for it (R15). Stated where no other write waits and no copy
engine owns a line of the log. -/
def DeparturesLogged (s u : State) (log : Option MeetLog) (gone : List (Nat × MeetEntry)) : Prop :=
  let records := gone.filter (fun p => p.2.merged)
  (log = none → u.sram = s.sram)
  ∧ ∀ l, log = some l → s.late = [] → ownedAt s false l.start (131072 - l.start % 131072) = false →
    let a := l.start + 16 * l.count
    let word := fun (p : Nat × MeetEntry) =>
      (1#1 ++ BitVec.ofNat 21 p.2.serial ++ BitVec.ofNat 10 p.1 ++ BitVec.ofNat 32 (min p.2.mult 0xFFFFFFFF) : Word)
    ((s.bank (l.start / 131072)).changes = [] →
      (∀ k p, k < logRoom l → records[k]? = some p →
        u.sram.readLE (a + 16 * k) 8 = p.2.wid.toNat ∧ u.sram.readLE (a + 16 * k + 8) 8 = (word p).toNat)
      ∧ ∀ x, (x < a ∨ a + 16 * min records.length (logRoom l) ≤ x) → u.sram.read x = s.sram.read x)
    ∧ ((s.bank (l.start / 131072)).changes ≠ [] → u.sram = s.sram
      ∧ ∀ k p, k < logRoom l → records[k]? = some p → .log (a + 16 * k) [p.2.wid, word p] ∈ u.late)

/-! ### Launch headers -/

/-- Whether an event target is valid (R279). -/
def TargetValid (t : Word) : Prop :=
  t.extractLsb' 17 46 = 0 ∧ (t.getLsbD 63 = true → t.extractLsb' 11 6 = 0) ∧ (t.getLsbD 63 = false → (t.extractLsb' 9 6).toNat < 36)

/-- The sixteen words of a launch header pass checks 2 to 6 of R276 for a partition, and h holds their fields (R275). -/
def HeaderHolds (s : State) (part : Nat) (w : Nat → Word) (h : Header) : Prop :=
  let width := fun i => ((w 2).extractLsb' (6 * i) 6).toNat
  let n := h.widths.length
  (1 ≤ n ∧ n ≤ 6 ∧ (∀ i, i < n → width i ≠ 0 ∧ (w (3 + i)).toNat ≤ 2 ^ width i) ∧ (∀ i, n ≤ i → i < 6 → width i = 0 ∧ w (3 + i) = 0)
    ∧ h.widths.sum ≤ 64)
  ∧ h.extents.foldl (fun x y => x * y) 1 ≤ 2 ^ 64 - 1
  ∧ ((h.det = true → h.strict = true) ∧ (w 2).extractLsb' 40 24 = 0 ∧ (w 9).extractLsb' 7 57 = 0 ∧ (w 13).extractLsb' 8 24 = 0
    ∧ h.weight ≠ 0 ∧ ∃ die cl, die < 4 ∧ cl < 36 ∧ (s.cluster (die * 36 + cl)).partId = part
      ∧ (s.cluster (die * 36 + cl)).retired = false ∧ h.diemask.getLsbD die = true)
  ∧ (h.events < 2 ^ (n + 1) ∧ (h.events ≠ 0 → TargetValid h.target))
  ∧ (h.entry.toNat % 4 = 0 ∧ h.staging.toNat % 256 = 0 ∧ h.stagesize % 256 = 0)
  ∧ h.widths = (List.range n).map width ∧ h.extents = (List.range n).map (fun i => (w (3 + i)).toNat)
  ∧ h.entry = w 0 ∧ h.arg = w 1 ∧ h.det = (w 2).getLsbD 36 ∧ h.strict = (w 2).getLsbD 37 ∧ h.replay = (w 2).getLsbD 38
  ∧ h.syscomp = (w 2).getLsbD 39 ∧ h.events = ((w 9).extractLsb' 0 7).toNat ∧ h.target = w 10 ∧ h.dep0 = w 11 ∧ h.dep1 = w 12
  ∧ h.weight = ((w 13).extractLsb' 0 4).toNat ∧ h.diemask = (w 13).extractLsb' 4 4 ∧ h.banks = (w 13).extractLsb' 32 32
  ∧ h.staging = w 14 ∧ h.stagesize = (w 15).toNat

end Sys2Proof.Machine

open Sys2Proof Sys2Proof.Machine


/-! ### Integer instructions -/

/-- R103, the whole table: each of the 26 ALU instructions writes X[d] and retires. The amounts are B[5:0], and B[4:0]
for the W forms. The next state is written out, so the statement is also their frame: one x register, what retirement
changes, and nothing else. -/
def Obligations.AluWritesTheTabledValue : Prop :=
  ∀ (s : State) (th : Thread) (d a b : Reg), s.current = some th →
    let A := th.getX a
    let B := th.getX b
    let k := (B.extractLsb' 0 6).toNat
    let kw := (B.extractLsb' 0 5).toNat
    let A32 : BitVec 32 := A.extractLsb' 0 32
    let B32 : BitVec 32 := B.extractLsb' 0 32
    let writes := fun (i : Instr) (v : Word) => exec i s = retires s (th.setX d v)
    writes (.add d a b) (A + B) ∧ writes (.sub d a b) (A - B) ∧ writes (.and d a b) (A &&& B)
    ∧ writes (.or d a b) (A ||| B) ∧ writes (.xor d a b) (A ^^^ B) ∧ writes (.andn d a b) (A &&& ~~~B)
    ∧ writes (.orn d a b) (A ||| ~~~B) ∧ writes (.xnor d a b) (~~~(A ^^^ B))
    ∧ writes (.sll d a b) (A <<< k) ∧ writes (.srl d a b) (A >>> k) ∧ writes (.sra d a b) (A.sshiftRight k)
    ∧ writes (.rol d a b) (if k = 0 then A else (A <<< k) ||| (A >>> (64 - k)))
    ∧ writes (.ror d a b) (if k = 0 then A else (A >>> k) ||| (A <<< (64 - k)))
    ∧ writes (.min d a b) (if A.slt B then A else B) ∧ writes (.max d a b) (if B.slt A then A else B)
    ∧ writes (.minn d a b) (if A.ult B then A else B) ∧ writes (.maxn d a b) (if B.ult A then A else B)
    ∧ writes (.slt d a b) (if A.slt B then 1 else 0) ∧ writes (.sltn d a b) (if A.ult B then 1 else 0)
    ∧ writes (.seq d a b) (if A = B then 1 else 0) ∧ writes (.sne d a b) (if A = B then 0 else 1)
    ∧ writes (.addw d a b) ((A32 + B32).signExtend 64) ∧ writes (.subw d a b) ((A32 - B32).signExtend 64)
    ∧ writes (.sllw d a b) ((A32 <<< kw).signExtend 64) ∧ writes (.srlw d a b) ((A32 >>> kw).signExtend 64)
    ∧ writes (.sraw d a b) ((A32.sshiftRight kw).signExtend 64)

/-- R104, the whole table: MUL and MULW write the low half of the product, MULH and MULHN the high half of the signed and
the unsigned one. -/
def Obligations.MultipliesWriteTheTabledHalf : Prop :=
  ∀ (s : State) (th : Thread) (d a b : Reg), s.current = some th →
    let A := th.getX a
    let B := th.getX b
    let writes := fun (i : Instr) (v : Word) => exec i s = retires s (th.setX d v)
    writes (.mul d a b) (A * B)
    ∧ writes (.mulh d a b) ((A.signExtend 128 * B.signExtend 128).extractLsb' 64 64)
    ∧ writes (.mulhn d a b) ((A.zeroExtend 128 * B.zeroExtend 128).extractLsb' 64 64)
    ∧ writes (.mulw d a b) ((A.extractLsb' 0 32 * B.extractLsb' 0 32).signExtend 64)

/-- R105 with R102: a divide issues as a head that holds its result, which is due 40 cycles later, or 24 for the W forms; when
the divisor is 0 and FTRAP[1] is set it traps DIV_ZERO instead, with EVAL 0, and writes nothing. -/
def Obligations.DividesRoundTowardsZero : Prop :=
  ∀ (s : State) (th : Thread) (d a b : Reg) (la : BitVec 4), s.current = some th →
    let A := th.getX a
    let B := th.getX b
    let A32 : BitVec 32 := A.extractLsb' 0 32
    let B32 : BitVec 32 := B.extractLsb' 0 32
    let issues := fun (i : Instr) (zero : Bool) (n : Nat) (v : Word) =>
      exec i s = if zero && th.ftrap.getLsbD 1 then .next (s.takeTrap s.cur { cause := .divZero, val := 0 })
        else .next (s.putThread s.cur (th.issueHead s.cycle (.div d v (s.cycle + n)) (.x d) la.toNat))
    issues (.div d a b la) (B == 0) 40 (if B = 0 then BitVec.allOnes 64 else A.sdiv B)
    ∧ issues (.divn d a b la) (B == 0) 40 (if B = 0 then BitVec.allOnes 64 else A.udiv B)
    ∧ issues (.rem d a b la) (B == 0) 40 (if B = 0 then A else A.srem B)
    ∧ issues (.remn d a b la) (B == 0) 40 (if B = 0 then A else A.umod B)
    ∧ issues (.divw d a b la) (B32 == 0) 24 (if B32 = 0 then BitVec.allOnes 64 else (A32.sdiv B32).signExtend 64)
    ∧ issues (.remw d a b la) (B32 == 0) 24 (if B32 = 0 then A32.signExtend 64 else (A32.srem B32).signExtend 64)

/-- R107, the whole table, with I = SignExtend(imm15, 15).

R108: an immediate shift or rotate, by each k from 0 to 63, writes X[a] shifted or rotated by k and retires.

R110: LIH writes SignExtend(imm20, 20) × 4,096 and ADDPC adds that to its own address. -/
def Obligations.ImmediateFormsWriteTheirValue : Prop :=
  (∀ (s : State) (th : Thread) (d a : Reg) (imm : BitVec 15), s.current = some th →
    let A := th.getX a
    let I : Word := imm.signExtend 64
    let writes := fun (i : Instr) (v : Word) => exec i s = retires s (th.setX d v)
    writes (.addi d a imm) (A + I) ∧ writes (.andi d a imm) (A &&& I) ∧ writes (.ori d a imm) (A ||| I)
    ∧ writes (.xori d a imm) (A ^^^ I) ∧ writes (.slti d a imm) (if A.slt I then 1 else 0)
    ∧ writes (.sltni d a imm) (if A.ult I then 1 else 0))
  ∧ (∀ (s : State) (th : Thread) (d a : Reg) (k : BitVec 6), s.current = some th →
    let A := th.getX a
    let n := k.toNat
    let writes := fun (i : Instr) (v : Word) => exec i s = retires s (th.setX d v)
    writes (.slli d a k) (A <<< n) ∧ writes (.srli d a k) (A >>> n) ∧ writes (.srai d a k) (A.sshiftRight n)
    ∧ writes (.roli d a k) (if n = 0 then A else (A <<< n) ||| (A >>> (64 - n)))
    ∧ writes (.rori d a k) (if n = 0 then A else (A >>> n) ||| (A <<< (64 - n))))
  ∧ (∀ (s : State) (th : Thread) (d : Reg) (imm : BitVec 20), s.current = some th →
    let I : Word := imm.signExtend 64 <<< 12
    exec (.lih d imm) s = retires s (th.setX d I) ∧ exec (.addpc d imm) s = retires s (th.setX d (th.pc + I)))

/-- R106, the whole table: CLZ and CTZ count the zeros above the highest and below the lowest one bit, POPC counts the ones,
BREV moves bit i to bit 63 − i and BSWAP byte i to byte 7 − i.

R109: with width w and place p, BFX writes the field of X[a] zero-extended, BFI writes the low w bits of X[a] into that
field of X[d] and keeps its other bits; a field that runs past bit 63 traps RESERVED_FIELD at the word (with an outstanding
head the trap is taken once the head has completed, R57). Bit by bit. -/
def Obligations.BitInstructionsWriteTheirValue : Prop :=
  (∀ (s : State) (th : Thread) (d a : Reg), s.current = some th →
    let A := th.getX a
    let writes := fun (i : Instr) (v : Word) => exec i s = retires s (th.setX d v)
    (∃ n : Nat, writes (.clz d a) (BitVec.ofNat 64 n) ∧ n ≤ 64 ∧ (∀ i, 64 - n ≤ i → i < 64 → A.getLsbD i = false)
      ∧ (n < 64 → A.getLsbD (63 - n) = true))
    ∧ (∃ n : Nat, writes (.ctz d a) (BitVec.ofNat 64 n) ∧ n ≤ 64 ∧ (∀ i, i < n → A.getLsbD i = false)
      ∧ (n < 64 → A.getLsbD n = true))
    ∧ writes (.popc d a) (BitVec.ofNat 64 ((List.range 64).countP (fun i => A.getLsbD i)))
    ∧ (∃ v : Word, writes (.brev d a) v ∧ ∀ i, i < 64 → v.getLsbD i = A.getLsbD (63 - i))
    ∧ (∃ v : Word, writes (.bswap d a) v ∧ ∀ i, i < 8 → v.extractLsb' (8 * i) 8 = A.extractLsb' (8 * (7 - i)) 8))
  ∧ (∀ (s : State) (th : Thread) (d a : Reg) (p w : BitVec 6), s.current = some th →
    let A := th.getX a
    let lo := p.toNat
    let n := w.toNat + 1
    (lo + n ≤ 64 →
      (∃ v : Word, exec (.bfx d a p w) s = retires s (th.setX d v)
        ∧ ∀ i, i < 64 → v.getLsbD i = (decide (i < n) && A.getLsbD (lo + i)))
      ∧ (∃ v : Word, exec (.bfi d a p w) s = retires s (th.setX d v)
        ∧ ∀ i, i < 64 → v.getLsbD i = if lo ≤ i ∧ i < lo + n then A.getLsbD (i - lo) else (th.getX d).getLsbD i))
    ∧ (64 < lo + n → th.head = none →
      let trap := Host.Outcome.next (s.takeTrap s.cur { cause := .reservedField, val := th.pc })
      exec (.bfx d a p w) s = trap ∧ exec (.bfi d a p w) s = trap))

/-- R111: a BCC goes to its own address + 4 × SignExtend(off12, 12) when its condition holds, else to its address + 4. It writes
nothing else.

R112 and R113: CALL and JMPR link to the next instruction and jump. JMPR reads X[a] before it writes X[d], and a target
that is no multiple of 4 traps MISALIGNED_FETCH at the JMPR with X[d] unchanged. -/
def Obligations.BranchesAndJumpsGoToTheirTargets : Prop :=
  (∀ (s : State) (th : Thread) (a b : Reg) (off : BitVec 12), s.current = some th →
    let A := th.getX a
    let B := th.getX b
    let goes := fun (i : Instr) (c : Bool) =>
      exec i s = jumps s th (if c then th.pc + off.signExtend 64 <<< 2 else th.pc + 4)
    goes (.beq a b off) (A == B) ∧ goes (.bne a b off) (A != B) ∧ goes (.blt a b off) (A.slt B)
    ∧ goes (.bge a b off) (B.sle A) ∧ goes (.bltn a b off) (A.ult B) ∧ goes (.bgen a b off) (B.ule A))
  ∧ (∀ (s : State) (th : Thread) (d a : Reg) (off : BitVec 20) (imm : BitVec 15), s.current = some th →
    let t := th.getX a + imm.signExtend 64
    exec (.call d off) s = jumps s (th.setX d (th.pc + 4)) (th.pc + off.signExtend 64 <<< 2)
    ∧ (t.extractLsb' 0 2 = 0 → exec (.jmpr d a imm) s = jumps s (th.setX d (th.pc + 4)) t)
    ∧ (t.extractLsb' 0 2 ≠ 0 → exec (.jmpr d a imm) s = .next (s.takeTrap s.cur { cause := .misalignedFetch, val := t })))

/-! ### Scalar memory and suspension cells -/

/-- R114, R115, R116, R118 and R120: a scalar load forms its pointer as X[a] + SignExtend(off11) × size, or X[a] for LWO and LDO,
and is checked for its size. When every check passes it issues: it is the thread's outstanding head with its destination,
size, extension and place, the PC moves past it, and on an L page its la counts as 0 (R56). When a check fails the trap is
taken; nothing else changes, but that a leaf with more than one of D, L and K is held in the TLBs (R151). LD and LDO also reach CONTROL
registers. That a check can make the access wait, and that nothing changes then, is the model's form of R15 and R23 (log 21).

R114, R118 and R120: a scalar store is checked at X[a] + SignExtend(off11) × size, or at X[a] for SWO and SDO, and issues as a
head without a destination that holds X[d]; a failed check traps and one that waits changes nothing, as for a load (log 21).

R11, R14, R116, R147, R152 and R155: what those checks decide, in their order. CONTROL in user mode is PRIVILEGED and a pointer of a
reserved space or layout SPACE_INVALID; then a pointer that is no multiple of the size is misaligned. In CLUSTER space an access past the
bank's end is misaligned too, and a bank that is not SCRATCH refuses it with BANK_MODE_MISMATCH. In GLOBAL space, and at PRIVBASE + offset
in PRIVATE space: where no TLB entry maps the address the walk decides, and where one refuses the access a new walk does; V clear is a page
fault, R or W missing, or U in user mode, is protection, more than one of D, L and K is ATTRIBUTE_CONFLICT, and a store to a K page needs
its owner die and a count of at most 1. A watch address comes last (log 14). -/
def Obligations.ScalarAccessesIssueAfterTheirChecks : Prop :=
  (∀ (s : State) (th : Thread) (d a : Reg) (la : BitVec 4) (off : BitVec 11) (ord : BitVec 2) (scope : BitVec 3),
    s.current = some th →
    let loads := fun (i : Instr) (size : Nat) (sext ctl : Bool) (P : Word) =>
      (∀ acc, checkAccess s (cxOf s th) th.place.handle .load .scalar ctl P size size = .ok acc →
        exec i s = .next ((touchAcc s (some th.core) .load acc).putThread s.cur
          (th.issueHead s.cycle (.load d size sext P acc.loc acc.lpage) (.x d) (if acc.lpage then 0 else la.toNat))))
      ∧ (∀ tr, checkAccess s (cxOf s th) th.place.handle .load .scalar ctl P size size = .error (some tr) →
        exec i s = .next ((s.holdLeaf tr).takeTrap s.cur tr) ∧ (tr.cause ≠ .attributeConflict → s.holdLeaf tr = s))
      ∧ (checkAccess s (cxOf s th) th.place.handle .load .scalar ctl P size size = .error none → exec i s = .next s)
    let P := fun (size : Word) => th.getX a + off.signExtend 64 * size
    loads (.lb d a la off) 1 true false (P 1) ∧ loads (.lh d a la off) 2 true false (P 2)
    ∧ loads (.lw d a la off) 4 true false (P 4) ∧ loads (.ld d a la off) 8 false true (P 8)
    ∧ loads (.lbn d a la off) 1 false false (P 1) ∧ loads (.lhn d a la off) 2 false false (P 2)
    ∧ loads (.lwn d a la off) 4 false false (P 4)
    ∧ loads (.lwo d a la ord scope) 4 true false (th.getX a) ∧ loads (.ldo d a la ord scope) 8 false true (th.getX a))
  ∧ (∀ (s : State) (th : Thread) (d a : Reg) (la : BitVec 4) (off : BitVec 11) (ord : BitVec 2) (scope : BitVec 3),
    s.current = some th →
    let stores := fun (i : Instr) (size : Nat) (ctl : Bool) (P : Word) =>
      (∀ acc, checkAccess s (cxOf s th) th.place.handle .store .scalar ctl P size size = .ok acc →
        exec i s = .next ((touchAcc s (some th.core) .store acc).putThread s.cur
          (th.issueHead s.cycle (.store size P (th.getX d) acc.loc acc.lpage) .none la.toNat)))
      ∧ (∀ tr, checkAccess s (cxOf s th) th.place.handle .store .scalar ctl P size size = .error (some tr) →
        exec i s = .next ((s.holdLeaf tr).takeTrap s.cur tr))
      ∧ (checkAccess s (cxOf s th) th.place.handle .store .scalar ctl P size size = .error none → exec i s = .next s)
    let P := fun (size : Word) => th.getX a + off.signExtend 64 * size
    stores (.sb d a la off) 1 false (P 1) ∧ stores (.sh d a la off) 2 false (P 2)
    ∧ stores (.sw d a la off) 4 false (P 4) ∧ stores (.sd d a la off) 8 true (P 8)
    ∧ stores (.swo d a la ord scope) 4 false (th.getX a) ∧ stores (.sdo d a la ord scope) 8 true (th.getX a))
  ∧ (∀ (s : State) (th : Thread) (store : Bool) (ptr : Word) (n : Nat), s.current = some th → n ∈ [1, 2, 4, 8] →
    let kind : AccessKind := if store then .store else .load
    let cx := cxOf s th
    let c := checkAccess s cx th.place.handle kind .scalar false ptr n n
    let traps := fun (cause : Cause) => c = .error (some { cause := cause, val := ptr })
    let space := ptr.extractLsb' 60 4
    let page := if store then Cause.storePageFault else .loadPageFault
    let misaligned := if store then Cause.storeMisaligned else .loadMisaligned
    let protection := if store then Cause.storeProtection else .loadProtection
    let seen := watched s (coreOfHandle th.place.handle) ptr n
    (space = 15 → th.mode = .user → traps .privileged)
    ∧ (5 ≤ space.toNat → space ≠ 15 → traps .spaceInvalid)
    ∧ (space = 0 → (ptr.extractLsb' 58 2 ≠ 0 ∨ ptr.extractLsb' 52 4 ≠ 0) → traps .spaceInvalid)
    ∧ (space = 1 → (ptr.extractLsb' 57 3 = 7 ∨ ptr.extractLsb' 22 35 ≠ 0) → traps .spaceInvalid)
    ∧ (space = 3 → ptr.extractLsb' 32 28 ≠ 0 → traps .spaceInvalid)
    ∧ (space = 1 → ptr.extractLsb' 57 3 ≠ 7 → ptr.extractLsb' 22 35 = 0 →
      let off := (ptr.extractLsb' 0 17).toNat
      let bank := clusterOfCore (coreOfHandle th.place.handle) * 32 + (ptr.extractLsb' 17 5).toNat
      (ptr.toNat % n ≠ 0 ∨ 2 ^ 17 < off + n → traps misaligned)
      ∧ (ptr.toNat % n = 0 → off + n ≤ 2 ^ 17 → (s.bank bank).changes = [] →
        ((s.bank bank).mode ≠ .scratch → traps .bankModeMismatch)
        ∧ ((s.bank bank).mode = .scratch → seen = true → traps .debugWatch)
        ∧ ((s.bank bank).mode = .scratch → seen = false →
          c = .ok { ptr := ptr, loc := .bank (bank * 2 ^ 17 + off), hit := none, win := (ptr.extractLsb' 57 3).toNat })))
    ∧ (∀ va : Nat, (space = 0 ∧ ptr.extractLsb' 58 2 = 0 ∧ ptr.extractLsb' 52 4 = 0 ∧ va = (ptr.extractLsb' 0 52).toNat
        ∨ space = 3 ∧ ptr.extractLsb' 32 28 = 0 ∧ va = (th.privbase.extractLsb' 0 52).toNat + (ptr.extractLsb' 0 32).toNat) →
      (ptr.toNat % n ≠ 0 → traps misaligned)
      ∧ (ptr.toNat % n = 0 → space = 3 → 2 ^ 52 ≤ va + n - 1 → traps page)
      ∧ (ptr.toNat % n = 0 → va + n ≤ 2 ^ 52 →
        let entry := tlbFind s th.core cx.asid va
        let permits := fun (e : Word) => e.getLsbD (if store then 2 else 1) = true ∧ (th.mode = .supervisor ∨ e.getLsbD 4 = true)
        let admitted := fun (e : TlbEntry) (walked : Bool) =>
          let many := (e.pte.getLsbD 8 && e.pte.getLsbD 9) || (e.pte.getLsbD 8 && e.pte.getLsbD 10) || (e.pte.getLsbD 9 && e.pte.getLsbD 10)
          let foreign := store && e.pte.getLsbD 10 && (e.pte.extractLsb' 56 2).toNat != cx.die
          let shared := store && e.pte.getLsbD 10 && decide (1 < (e.pte.extractLsb' 48 8).toNat)
          (many = true → traps .attributeConflict)
          ∧ (many = false → walked = true → foreign = true → traps .kvNotOwner)
          ∧ (many = false → walked = true → foreign = false → shared = true → traps .kvSharedWrite)
          ∧ (many = false → foreign = false → shared = false → seen = true → traps .debugWatch)
          ∧ (many = false → foreign = false → shared = false → seen = false →
            c = .ok { ptr := ptr, loc := .dram (e.pa va), hit := some { entry := e, walked := walked }, win := 0 })
        ((entry = none ∨ ∃ e, entry = some e ∧ ¬ permits e.pte) →
          (walk s none cx.asid cx.ptbase va = .fault → traps page)
          ∧ (walk s none cx.asid cx.ptbase va = .corrupt → traps .pageTableCorrupt)
          ∧ ∀ e, walk s none cx.asid cx.ptbase va = .leaf e → (¬ permits e.pte → traps protection) ∧ (permits e.pte → admitted e true))
        ∧ ∀ e, entry = some e → permits e.pte → (store = true → e.pte.getLsbD 7 = true) → admitted e false)))

/-- R114 and R118: when the data of an outstanding load returns from DRAM (with no tag to act on) or from a bank, X[d] becomes the
bytes at its place, sign-extended or zero-extended, and the head retires. No byte of memory changes.

R101, R114, R118 and R319: STORE_ACCEPT performs an outstanding store: byte i of its data goes to byte i of its place, every other
byte of DRAM and of the banks reads as before, the other threads are as before, and its own thread keeps its registers.

R317, R319 and R329: each word that a store touches becomes VALUE, and the others keep their tags; on an L page a store to a word whose tag
cannot be read traps UNCORRECTABLE_DATA, with ESKIP the shadows that have retired, and one to an EVALUATING word traps CELL_BUSY_WRITE unless
its thread is the word's evaluator, whose store leaves the tag EVALUATING. One through the REMOTE space to a word that is not VALUE traps
THUNK_INVALID. After a trap no byte has changed.

R148: CONTROL_REGISTER_WRITE performs an outstanding 8-byte store to a CONTROL register of a core: CTXSPILL and CTXSPLEN while no
record is in the spill area, and while one is there the write leaves them as they are; DEQSPILL and WDOG always; each with the bits outside
its fields zero. No memory changes. -/
def Obligations.ScalarAccessesMoveExactlyTheirBytes : Prop :=
  (∀ (s : State) (t : Nat) (th : Thread) (h : Head) (d : Reg) (sext lpage : Bool) (ptr : Word) (pa : Nat),
    s.thread t = some th → th.head = some h → (lpage = true → s.tag pa = 0) →
    let byte := fun (m : Memory) (i : Nat) => m.read (pa + i)
    let returns := fun (m : Memory) (loc : Loc) =>
      let at2 : BitVec 16 := byte m 1 ++ byte m 0
      let at4 : BitVec 32 := byte m 3 ++ byte m 2 ++ at2
      let at8 : BitVec 64 := byte m 7 ++ byte m 6 ++ byte m 5 ++ byte m 4 ++ at4
      let dest := fun (size : Nat) (v : Word) =>
        h.op = .load d size sext ptr loc lpage → lineHeld s loc size = false → locBad s loc size = false →
          exec (.loadDataReturn t) s = .next ((s.acceptLoc th.core loc).putThread t ((th.setX d v).completeHead s.cycle))
      dest 1 (if sext then (byte m 0).signExtend 64 else (byte m 0).zeroExtend 64)
      ∧ dest 2 (if sext then at2.signExtend 64 else at2.zeroExtend 64)
      ∧ dest 4 (if sext then at4.signExtend 64 else at4.zeroExtend 64)
      ∧ dest 8 at8
    returns s.mem (.dram pa) ∧ returns s.sram (.bank pa))
  ∧ (∀ (s : State) (t : Nat) (th : Thread) (h : Head) (size : Nat) (ptr data : Word) (pa : Nat) (lpage : Bool),
    Tidy s → s.thread t = some th → th.head = some h → size ≤ 8 →
    let wrote := fun (m m' : Memory) =>
      ∀ a, m'.read a = if pa ≤ a ∧ a < pa + size then data.extractLsb' (8 * (a - pa)) 8 else m.read a
    let remote := ptr.extractLsb' 60 4 = 4
    (h.op = .store size ptr data (.dram pa) lpage → lineHeld s (.dram pa) size = false →
      (lpage = true → s.tag pa ≠ 2 ∧ tagBad s pa = false ∧ (remote → s.tag pa = 0)) →
      ∃ u, exec (.storeAccept t) s = .next u ∧ wrote s.mem u.mem ∧ u.sram = s.sram ∧ u.cores = s.cores
        ∧ u.threads = s.threads.put t (th.completeHead s.cycle)
        ∧ ∀ a, u.tag a = if pa / 8 ≤ a / 8 ∧ a / 8 ≤ (pa + size - 1) / 8 then 0 else s.tag a)
    ∧ (h.op = .store size ptr data (.dram pa) true → lineHeld s (.dram pa) size = false →
      (tagBad s pa = true → exec (.storeAccept t) s = .next (s.trapHead t { cause := .uncorrectableData, val := ptr } h.retired))
      ∧ (tagBad s pa = false → remote → s.tag pa ≠ 0 →
        exec (.storeAccept t) s = .next (s.trapHead t { cause := .thunkInvalid, val := ptr } 0))
      ∧ (tagBad s pa = false → ¬ remote → s.tag pa = 2 → th.evalOf ≠ some (pa / 8 * 8) →
        exec (.storeAccept t) s = .next (s.trapHead t { cause := .cellBusyWrite, val := ptr } 0))
      ∧ (tagBad s pa = false → ¬ remote → s.tag pa = 2 → th.evalOf = some (pa / 8 * 8) → pa % 8 + size ≤ 8 → 0 < size →
        ∃ u, exec (.storeAccept t) s = .next u ∧ wrote s.mem u.mem ∧ u.tags = s.tags
          ∧ u.threads = s.threads.put t (th.completeHead s.cycle)))
    ∧ (h.op = .store size ptr data (.bank pa) lpage → lineHeld s (.bank pa) size = false →
      ∃ u, exec (.storeAccept t) s = .next u ∧ wrote s.sram u.sram ∧ u.mem = s.mem ∧ u.tags = s.tags ∧ u.cores = s.cores
        ∧ u.threads = s.threads.put t (th.completeHead s.cycle)))
  ∧ (∀ (s : State) (t : Nat) (th : Thread) (h : Head) (ptr data : Word) (unit off : Nat) (lpage : Bool),
    s.thread t = some th → th.head = some h → h.op = .store 8 ptr data (.control unit false off) lpage →
    let writes := fun (c : Core) =>
      exec (.controlRegisterWrite t) s = .next ((s.putCore unit c).putThread t (th.completeHead s.cycle))
    let spilled := s.threads.countP (fun p => match p.2.place with
      | .spilled hd _ => coreOfHandle hd == unit
      | _ => false)
    (off = 0x00 → spilled = 0 → writes { s.core unit with ctxspill := data &&& 0x0000FFFFFFFFFF00 })
    ∧ (off = 0x08 → spilled = 0 → writes { s.core unit with ctxsplen := data &&& 0xFFFF })
    ∧ ((off = 0x00 ∨ off = 0x08) → 0 < spilled → spilled < 65536 →
      exec (.controlRegisterWrite t) s = .next (s.putThread t (th.completeHead s.cycle)))
    ∧ (off = 0x10 → writes { s.core unit with deqspill := data &&& 0x0000FFFFFFFFFF00 })
    ∧ (off = 0x18 → writes { s.core unit with wdog := data &&& 0xFFFFFFFF }))

/-- R154: what an access that passed its checks does to the page table: the leaf's 8 bytes gain A (bit 6) when a new walk gave the
entry and M (bit 7) when a store found M clear; every other byte of DRAM reads as before, and the banks and the threads are as
before. An access without translation does nothing.

R151: the walk, level by level. An entry that lies outside DRAM or is marked uncorrectable ends it in PAGE_TABLE_CORRUPT (log 13) and one in a
line that a copy engine owns makes it wait. V clear is a page fault. A pointer entry with its reserved bits zero goes on at the next level, and
at level 3 is corrupt; a leaf with its reserved bits zero, its address in a memory region, and K only on a 64 KiB page of a G-die, maps the page
at levels 2 and 3; anything else is corrupt. -/
def Obligations.TranslationTouchesOnlyItsLeaf : Prop :=
  (∀ (s : State) (core : Option Nat) (kind : AccessKind) (acc : Acc), Tidy s →
    let u := touchAcc s core kind acc
    (∀ h, acc.hit = some h →
      let leaf := fun (x : State) => BitVec.ofNat 64 (x.mem.readLE h.entry.pteAddr 8)
      let bits : Word := (if h.walked then 0x40 else 0)
        ||| (if kind = .store ∧ h.entry.pte.getLsbD 7 = false then 0x80 else 0)
      leaf u = leaf s ||| bits
      ∧ (∀ a, (a < h.entry.pteAddr ∨ h.entry.pteAddr + 8 ≤ a) → u.mem.read a = s.mem.read a)
      ∧ u.sram = s.sram ∧ u.threads = s.threads)
    ∧ (acc.hit = none → u = s))
  ∧ (∀ (s : State) (asid : BitVec 16) (root : Word) (va : Nat),
    let index := fun (level : Nat) => if level = 1 then va / 2 ^ 42 % 1024 else if level = 2 then va / 2 ^ 29 % 8192 else va / 2 ^ 16 % 8192
    let from_ := fun (level table : Nat) => walkFrom s none asid va (3 - level) table
    walk s none asid root va = from_ 1 ((root.extractLsb' 16 32).toNat * 65536)
    ∧ ∀ level table, 1 ≤ level → level ≤ 3 →
      let a := table + index level * 8
      let e : Word := BitVec.ofNat 64 (s.mem.readLE a 8)
      let base := (e.extractLsb' 16 32).toNat * 65536
      let pointer := e.extractLsb' 1 3 = 0
      (0x3000000000 ≤ a ∨ s.isBad a 8 = true → from_ level table = .corrupt)
      ∧ (a < 0x3000000000 → s.isBad a 8 = false → ownedAt s true a 8 = true → from_ level table = .held)
      ∧ (a < 0x3000000000 → s.isBad a 8 = false → ownedAt s true a 8 = false →
        (e.getLsbD 0 = false → from_ level table = .fault)
        ∧ (e.getLsbD 0 = true → pointer →
          (level < 3 → e.extractLsb' 4 12 = 0 → e.extractLsb' 48 12 = 0 → from_ level table = from_ (level + 1) base)
          ∧ (level = 3 ∨ e.extractLsb' 4 12 ≠ 0 ∨ e.extractLsb' 48 12 ≠ 0 → from_ level table = .corrupt))
        ∧ (e.getLsbD 0 = true → ¬ pointer →
          let k := e.getLsbD 10
          let large := decide (level = 2)
          let good := e.extractLsb' 11 5 = 0 ∧ e.extractLsb' 58 2 = 0 ∧ (k = false → e.extractLsb' 48 10 = 0)
            ∧ (large = true → e.extractLsb' 16 13 = 0) ∧ paReserved base = false ∧ (k = true → large = false ∧ 2 ≤ dieOfPa base)
          (level = 1 ∨ ¬ good → from_ level table = .corrupt)
          ∧ (level ≠ 1 → good → from_ level table
            = .leaf { asid := asid, page := va / 2 ^ (if large then 29 else 16), large := large, pte := e, pteAddr := a }))))

/-- R37 and R141: FENCE only retires: R37 makes it wait for the thread's earlier accesses, which the model has performed when it
issues (log 4). R121: PF retires whatever its pointer is and never traps: it does nothing more, or what a load
of 1 byte at X[a] that passes its checks does to the leaf and the TLBs.

R122: CFLUSH and CINV are checked as a load of 1 byte at X[a] in GLOBAL or PRIVATE space and retire; they change no register, and
of memory only what the translation does to its leaf. In another space they trap SPACE_INVALID (a CONTROL pointer in user mode
is PRIVILEGED first). A line that a copy engine owns makes them wait: they are withdrawn and nothing changes (log 21). -/
def Obligations.FencesAndCacheOperationsKeepData : Prop :=
  (∀ (s : State) (th : Thread) (a : Reg) (la : BitVec 4) (ord : BitVec 2) (scope : BitVec 3), s.current = some th →
    exec (.fence ord scope) s = ends s th
    ∧ (exec (.pf a la scope) s = ends s th
      ∨ ∃ acc, checkAccess s (cxOf s th) th.place.handle .load .scalar false (th.getX a) 1 1 = .ok acc
          ∧ exec (.pf a la scope) s = ends (touchAcc s (some th.core) .load acc) th))
  ∧ (∀ (s : State) (th : Thread) (a : Reg) (la : BitVec 4) (ord : BitVec 2) (scope : BitVec 3) (acc : Acc), s.current = some th →
    let P := th.getX a
    let space := P.extractLsb' 60 4
    let checked := checkAccess s (cxOf s th) th.place.handle .load .scalar false P 1 1 = .ok acc
    let works := fun (i : Instr) =>
      (space = 0 ∨ space = 3 → checked → lineHeld s acc.loc 1 = false →
        exec i s = ends (touchAcc s (some th.core) .load acc) th)
      ∧ (space = 0 ∨ space = 3 → checked → lineHeld s acc.loc 1 = true → exec i s = .next s)
      ∧ (space ≠ 0 → space ≠ 3 → (space ≠ 15 ∨ th.mode = .supervisor) →
        exec i s = .next (s.takeTrap s.cur { cause := .spaceInvalid, val := P }))
    works (.cflush a la ord scope) ∧ works (.cinv a la ord scope))

/-- R331: LTAG writes the cell's 8 bytes to X[d] and its tag, 0 on a page without L, to X[d + 1], and acts on no tag.

R332: on a cell that is not EVALUATING, SUSP writes X[d] to the cell's 8 bytes and makes its tag SUSPENDED; every other byte reads
as before but for the leaf. On an EVALUATING cell it traps CELL_BUSY_WRITE and changes nothing else.

R333: RESOLVE and CFAIL on a cell without an evaluation entry write X[d] to it, with tag VALUE or FAILED, and retire. An EVALUATING
cell admits them only from its evaluator or in supervisor mode; anyone else traps CELL_BUSY_WRITE.

R325, R327 and R333: its evaluator's RESOLVE or CFAIL ends the evaluation: the cell's word and tag are written, its entry is gone, the
evaluator's CELL becomes 0, and every waiter is woken. A scalar load that waited gets its bytes of X[d], extended, and retires; after
CFAIL every waiter has SUSPENSION_FAILED with the cell's address pending at its instruction. Here the waiters are in the context cache;
they stay there with wake pending (R99), and a load's result and retirement come with the RESOLVE (log 22). -/
def Obligations.CellsAreReadSuspendedAndEnded : Prop :=
  (∀ (s : State) (th : Thread) (d a : Reg) (la : BitVec 4) (ord : BitVec 2) (scope : BitVec 3) (pa : Nat) (h : Hit),
    s.current = some th → cellAccess s th .load false (th.getX a) = .ok (pa, h) →
    exec (.ltag d a la ord scope) s =
      ends (touch s (some th.core) .load h)
        ((th.setX d (BitVec.ofNat 64 (s.mem.readLE pa 8))).setX (d + 1)
          (if h.entry.pte.getLsbD 9 then (s.tag pa).zeroExtend 64 else 0)))
  ∧ (∀ (s : State) (th : Thread) (d a : Reg) (la : BitVec 4) (scope : BitVec 3) (pa : Nat) (h : Hit),
    Tidy s → s.current = some th → cellAccess s th .store true (th.getX a) = .ok (pa, h) →
    (s.tag pa ≠ 2 → ∃ u, exec (.susp d a la scope) s = .next u ∧ u.tag pa = 1 ∧ (∀ q, q / 8 ≠ pa / 8 → pa % 8 = 0 → u.tag q = s.tag q)
      ∧ u.threads = s.threads.put s.cur (th.retire s.cycle).endWindow
      ∧ (∀ i, i < 8 → u.mem.read (pa + i) = (th.getX d).extractLsb' (8 * i) 8)
      ∧ ∀ x, (x < pa ∨ pa + 8 ≤ x) → u.mem.read x = (touch s (some th.core) .store h).mem.read x)
    ∧ (s.tag pa = 2 → exec (.susp d a la scope) s = .next (s.takeTrap s.cur { cause := .cellBusyWrite, val := th.getX a })))
  ∧ (∀ (s : State) (th : Thread) (d a : Reg) (la : BitVec 4) (scope : BitVec 3) (pa : Nat) (h : Hit),
    Tidy s → s.current = some th → cellAccess s th .store true (th.getX a) = .ok (pa, h) → pa % 8 = 0 →
    let ends1 := fun (i : Instr) (tag : BitVec 2) =>
      (s.tag pa ≠ 2 → s.evals.find pa = none → th.evalOf ≠ some pa → ∃ u, exec i s = .next u ∧ u.tag pa = tag
        ∧ u.threads = s.threads.put s.cur (th.retire s.cycle).endWindow
        ∧ (∀ j, j < 8 → u.mem.read (pa + j) = (th.getX d).extractLsb' (8 * j) 8)
        ∧ ∀ x, (x < pa ∨ pa + 8 ≤ x) → u.mem.read x = (touch s (some th.core) .store h).mem.read x)
      ∧ (s.tag pa = 2 → th.evalOf ≠ some pa → th.mode = .user →
        exec i s = .next (s.takeTrap s.cur { cause := .cellBusyWrite, val := th.getX a }))
    ends1 (.resolve d a la scope) 0 ∧ ends1 (.cfail d a la scope) 3)
  ∧ (∀ (s : State) (th : Thread) (d a : Reg) (la : BitVec 4) (scope : BitVec 3) (pa : Nat) (h : Hit) (ev : Eval),
    Tidy s → s.current = some th → cellAccess s th .store true (th.getX a) = .ok (pa, h) → pa % 8 = 0 →
    s.tag pa = 2 → th.evalOf = some pa → s.evals.find pa = some ev → ev.waiters.Nodup → s.cur ∉ ev.waiters →
    (∀ k ∈ ev.waiters, ∃ x home p r off size sext, s.thread k = some x ∧ x.place = .cached home ∧ x.evalOf ≠ some pa
      ∧ x.wait = some (.cell p (th.getX a) (.load r off size sext)) ∧ size ∈ [1, 2, 4, 8] ∧ off + size ≤ 8) →
    let v := th.getX d
    let ended := fun (u : State) (tag : BitVec 2) =>
      u.tag pa = tag ∧ u.evals.find pa = none ∧ (∀ j, j < 8 → u.mem.read (pa + j) = v.extractLsb' (8 * j) 8)
      ∧ (∀ x, (x < pa ∨ pa + 8 ≤ x) → u.mem.read x = (touch s (some th.core) .store h).mem.read x)
      ∧ ∃ y, u.thread s.cur = some y ∧ y.cell = 0 ∧ y.evalOf = none ∧ y.x = th.x ∧ y.pc = th.redo.getD (th.pc + 4)
        ∧ y.instret = th.instret + 1
    (∃ u, exec (.resolve d a la scope) s = .next u ∧ ended u 0
      ∧ ∀ k ∈ ev.waiters, ∀ x p q r off size sext, s.thread k = some x → x.wait = some (.cell p q (.load r off size sext)) →
        let w := v.extractLsb' (8 * off) (8 * size)
        ∃ y, u.thread k = some y ∧ y.x = (x.setX r (if sext then w.signExtend 64 else w.zeroExtend 64)).x ∧ y.wait = none
          ∧ y.wake = true ∧ y.pc = x.redo.getD (x.pc + 4) ∧ y.instret = x.instret + 1 ∧ y.place = x.place)
    ∧ (∃ u, exec (.cfail d a la scope) s = .next u ∧ ended u 3
      ∧ ∀ k ∈ ev.waiters, ∀ x, s.thread k = some x →
        ∃ y, u.thread k = some y ∧ y.x = x.x ∧ y.wait = none ∧ y.wake = true ∧ y.pc = x.pc ∧ y.instret = x.instret
          ∧ y.pending = x.pending ++ [{ cause := .suspensionFailed, val := th.getX a &&& ~~~7 }] ∧ y.place = x.place))

/-! ### Control registers, traps and the privileged group -/

/-- R95, R98 and R123: CSRR writes the value of the CSR it names to X[d] and retires, in user mode for every CSR but the supervisor's
and in supervisor mode for all. WF1 to WF6 read the fields of WID, most significant first, and 0 beyond the launch's
widths. Stated for a thread bound in slot `h`. -/
def Obligations.CsrReadsGiveTheTabledValue : Prop :=
  ∀ (s : State) (th : Thread) (h : Nat) (d : Reg), s.current = some th → th.place = .slot h →
    let reads := fun (n : BitVec 12) (v : Word) => exec (.csrr d n) s = ends s (th.setX d v)
    let field := fun (i : Nat) =>
      let w := ((s.launches.find th.lctx.toNat).map (fun l => l.hdr.widths)).getD []
      if i ≤ w.length then BitVec.ofNat 64 (th.wid.toNat / 2 ^ ((w.drop i).foldl (· + ·) 0) % 2 ^ (w.getD (i - 1) 0)) else 0
    reads 0x000 (th.fflags.zeroExtend 64) ∧ reads 0x001 (th.frm.zeroExtend 64) ∧ reads 0x002 (th.ftrap.zeroExtend 64)
    ∧ reads 0x003 th.flagorg ∧ reads 0x010 (th.mult.zeroExtend 64) ∧ reads 0x011 (th.live.zeroExtend 64)
    ∧ reads 0x020 th.wid ∧ reads 0x021 (field 1) ∧ reads 0x022 (field 2) ∧ reads 0x023 (field 3) ∧ reads 0x024 (field 4)
    ∧ reads 0x025 (field 5) ∧ reads 0x026 (field 6)
    ∧ reads 0x027 (BitVec.ofNat 64 (th.lctx.toNat
        + (((s.core th.core).served.find? (fun c => c.lctx == th.lctx.toNat)).map (fun c => c.idx)).getD 0 * 65536))
    ∧ (∀ l, s.launches.find th.lctx.toNat = some l → reads 0x02D (BitVec.ofNat 64 ((if l.hdr.strict then 1 else 0)
        + (if l.hdr.det then 2 else 0) + (if l.hdr.replay then 4 else 0) + (if l.hdr.syscomp then 8 else 0))))
    ∧ reads 0x028 (BitVec.ofNat 64 (h / 16))
    ∧ reads 0x029 (BitVec.ofNat 64 (h % 16)) ∧ reads 0x02A th.cell ∧ reads 0x02B th.widself
    ∧ reads 0x02C (BitVec.ofNat 64 h) ∧ reads 0x030 (BitVec.ofNat 64 s.cycle) ∧ reads 0x031 th.instret
    ∧ reads 0x032 th.privbase ∧ reads 0x040 th.utvec ∧ reads 0x041 th.uepc ∧ reads 0x042 th.ucause
    ∧ reads 0x043 th.uval ∧ reads 0x044 th.uskip ∧ reads 0x050 th.mxcfg ∧ reads 0x051 th.mxcnt
    ∧ (th.mode = .supervisor →
      reads 0x100 (s.csrsOf th).tvec ∧ reads 0x101 th.epc ∧ reads 0x102 th.cause ∧ reads 0x103 th.eval
      ∧ reads 0x104 th.eskip ∧ reads 0x105 (if th.emode = .supervisor then 1 else 0) ∧ reads 0x106 (s.csrsOf th).deleg
      ∧ reads 0x110 ((s.csrsOf th).asid.zeroExtend 64) ∧ reads 0x111 (s.csrsOf th).ptbase)

/-- R95, R96, R123, R124 and R135: CSRW writes X[a], CSRS the old value OR X[a] and CSRC the old value AND NOT X[a], each cut to the
register's width, and X[d] gets the old value; the instruction retires and nothing else changes. The user CSRs in both
modes; the thread's other writable CSRs in supervisor mode, MULT not 0 and within 32 bits, LIVE within the limits of R161.

R95, R96 and R135: a supervisor's CSRW of TVEC, DELEG, ASID or PTBASE writes the copy that its context has on its own core, cut to
the register's width, with the bits of DELEG that no cause may use kept zero, and X[d] gets the old value; the copies of
other contexts and of other cores stay. -/
def Obligations.CsrWritesKeepTheirWidth : Prop :=
  (∀ (s : State) (th : Thread) (d a : Reg), s.current = some th →
    let X := th.getX a
    let writes := fun (n : BitVec 12) (old : Word) (ok : Word → Prop) (put : Word → Thread) =>
      (ok X → exec (.csrw d a n) s = ends s ((put X).setX d old))
      ∧ (ok (old ||| X) → exec (.csrs d a n) s = ends s ((put (old ||| X)).setX d old))
      ∧ (ok (old &&& ~~~X) → exec (.csrc d a n) s = ends s ((put (old &&& ~~~X)).setX d old))
    let free := fun (_ : Word) => True
    writes 0x000 (th.fflags.zeroExtend 64) free (fun v => { th with fflags := v.extractLsb' 0 5 })
    ∧ writes 0x001 (th.frm.zeroExtend 64) free (fun v => { th with frm := v.extractLsb' 0 2 })
    ∧ writes 0x002 (th.ftrap.zeroExtend 64) free (fun v => { th with ftrap := v.extractLsb' 0 5 })
    ∧ writes 0x040 th.utvec free (fun v => { th with utvec := v.extractLsb' 2 62 ++ (0 : BitVec 2) })
    ∧ writes 0x041 th.uepc free (fun v => { th with uepc := v })
    ∧ writes 0x042 th.ucause free (fun v => { th with ucause := (v.extractLsb' 0 6).zeroExtend 64 })
    ∧ writes 0x043 th.uval free (fun v => { th with uval := v })
    ∧ writes 0x044 th.uskip free (fun v => { th with uskip := v })
    ∧ writes 0x050 th.mxcfg free (fun v => { th with mxcfg := (v.extractLsb' 0 3).zeroExtend 64 })
    ∧ writes 0x051 th.mxcnt free (fun v => { th with mxcnt := v })
    ∧ (th.mode = .supervisor →
      writes 0x010 (th.mult.zeroExtend 64) (fun v => v.extractLsb' 0 32 ≠ 0 ∧ v.extractLsb' 32 32 = 0)
        (fun v => { th with mult := v.extractLsb' 0 32 })
      ∧ writes 0x011 (th.live.zeroExtend 64)
        (fun v => v.extractLsb' 32 32 = 0 ∧ v.getLsbD 0 = false ∧ (List.range 32).countP (fun i => v.getLsbD i) ≤ 8)
        (fun v => { th with live := v.extractLsb' 0 32 })
      ∧ writes 0x032 th.privbase free
        (fun v => { th with privbase := (0 : BitVec 12) ++ v.extractLsb' 16 36 ++ (0 : BitVec 16) })
      ∧ writes 0x101 th.epc free (fun v => { th with epc := v })
      ∧ writes 0x102 th.cause free (fun v => { th with cause := (v.extractLsb' 0 6).zeroExtend 64 })
      ∧ writes 0x103 th.eval free (fun v => { th with eval := v })
      ∧ writes 0x104 th.eskip free (fun v => { th with eskip := v })
      ∧ writes 0x105 (if th.emode = .supervisor then 1 else 0) free
        (fun v => { th with emode := if v.getLsbD 0 then .supervisor else .user })))
  ∧ (∀ (s : State) (th : Thread) (d a : Reg) (sv : Served), s.current = some th → th.mode = .supervisor →
    (s.core th.core).served.find? (fun c => c.lctx == th.lctx.toNat) = some sv →
    let X := th.getX a
    let writes := fun (n : BitVec 12) (old : Word) (new : CtxCsrs) =>
      ∃ u, exec (.csrw d a n) s = .next u ∧ u.csrsOf th = new
        ∧ u.threads = s.threads.put s.cur ((th.setX d old).retire s.cycle).endWindow
        ∧ (∀ o : Thread, o.core ≠ th.core ∨ o.lctx ≠ th.lctx → u.csrsOf o = s.csrsOf o)
        ∧ u.mem = s.mem ∧ u.sram = s.sram
    writes 0x100 sv.csrs.tvec { sv.csrs with tvec := X.extractLsb' 2 62 ++ (0 : BitVec 2) }
    ∧ writes 0x106 sv.csrs.deleg { sv.csrs with deleg := X &&& ~~~0xFFE0008000000104 }
    ∧ writes 0x110 (sv.csrs.asid.zeroExtend 64) { sv.csrs with asid := X.extractLsb' 0 16 }
    ∧ writes 0x111 sv.csrs.ptbase { sv.csrs with ptbase := (0 : BitVec 16) ++ X.extractLsb' 16 32 ++ (0 : BitVec 16) })

/-- R96, its four checks in their order: an absent number, and a write to a read-only CSR (a UR CSR that is supervisor writable, in user
mode), trap CSR_INVALID with the number as EVAL; a supervisor CSR in user mode traps PRIVILEGED with the word's address;
MULT 0 or beyond 32 bits is CSR_INVALID and a LIVE mask with [0] or [63:32] set or with more than 8 registers is
MEET_LIVE_MASK. Nothing else changes. Stated for CSRW. -/
def Obligations.CsrChecksRefuseInOrder : Prop :=
  ∀ (s : State) (th : Thread) (d a : Reg) (n : BitVec 12), s.current = some th →
    let X := th.getX a
    let traps := fun (c : Cause) (v : Word) => exec (.csrw d a n) s = .next (s.takeTrap s.cur { cause := c, val := v })
    let ro : List Nat := [0x003, 0x020, 0x021, 0x022, 0x023, 0x024, 0x025, 0x026, 0x027, 0x028, 0x029, 0x02A, 0x02B, 0x02C, 0x02D,
      0x030, 0x031]
    let sw : List Nat := [0x010, 0x011, 0x032]
    let user : List Nat := [0x000, 0x001, 0x002, 0x040, 0x041, 0x042, 0x043, 0x044, 0x050, 0x051]
    let sup : List Nat := [0x100, 0x101, 0x102, 0x103, 0x104, 0x105, 0x106, 0x110, 0x111]
    (n.toNat ∉ ro ++ sw ++ user ++ sup → traps .csrInvalid (n.zeroExtend 64))
    ∧ (n.toNat ∈ sup → th.mode = .user → traps .privileged th.pc)
    ∧ (n.toNat ∈ ro → traps .csrInvalid (n.zeroExtend 64))
    ∧ (n.toNat ∈ sw → th.mode = .user → traps .csrInvalid (n.zeroExtend 64))
    ∧ (n = 0x010 → th.mode = .supervisor → (X.extractLsb' 0 32 = 0 ∨ X.extractLsb' 32 32 ≠ 0) → traps .csrInvalid 0x010)
    ∧ (n = 0x011 → th.mode = .supervisor →
      (X.extractLsb' 32 32 ≠ 0 ∨ X.getLsbD 0 = true ∨ 8 < (List.range 32).countP (fun i => X.getLsbD i)) →
      traps .meetLiveMask X)

/-- R134 and R135, for a trap that is not delegated (and is neither MACHINE_CHECK nor CONTEXT_SWAP_ERROR, nor a fetch trap of the first
instruction at TVEC): EPC holds the trapping instruction's address, CAUSE the code, EVAL and ESKIP what the cause gives,
EMODE the mode before; the mode is supervisor and the PC is TVEC. The slot is TRAPPING for 16 cycles. The x, v and m
registers, the flags and every U register stay, and so does all of the package but the thread.

R134 and R135, for a trap of user mode whose bit of DELEG is set, that DELEG may hold, with UTVEC not 0 and not a fetch trap at UTVEC: UEPC,
UCAUSE, UVAL and USKIP are written, the PC is UTVEC, the mode stays user and the supervisor trap registers stay. Causes 2, 8, 39 and 53
to 63 are never delegated.

R136: a fetch trap of the first instruction at UTVEC, or at the address that UTVEC holds however the thread came there (log 66), enters at
TVEC whatever DELEG holds, with EMODE user and the U registers as they were.

R136 and R138: a fetch trap of the first instruction at TVEC, and MACHINE_CHECK, enter no handler: the thread ends and Helben logs
MACHINE_CHECK with its handle and the trap's EVAL (log 67). CONTEXT_SWAP_ERROR ends it too, and is logged as itself. -/
def Obligations.TrapEntrySavesAndGoesToTvec : Prop :=
  (∀ (s : State) (t : Nat) (th : Thread) (pc : Word) (tr : Trap) (skip : Nat),
    s.thread t = some th → tr.cause ≠ .machineCheck → tr.cause ≠ .contextSwapError →
    (th.entered = .supervisor → tr.cause.ofFetch = false) →
    (th.mode = .supervisor ∨ (s.csrsOf th).deleg.getLsbD tr.cause.code = false ∨ th.utvec = 0
      ∨ (th.entered = .user ∨ th.pc = th.utvec) ∧ tr.cause ∈ [.fetchFault, .misalignedFetch, .instructionUncorrectable]) →
    ∃ u : Thread, s.takeTrapAt t pc tr skip = s.putThread t u
      ∧ u.epc = pc ∧ u.cause = BitVec.ofNat 64 tr.cause.code ∧ u.eval = tr.val ∧ u.eskip = BitVec.ofNat 64 skip
      ∧ u.emode = th.mode ∧ u.mode = .supervisor ∧ u.pc = (s.csrsOf th).tvec ∧ u.trapUntil = some (s.cycle + 16)
      ∧ u.x = th.x ∧ u.v = th.v ∧ u.m = th.m ∧ u.fflags = th.fflags ∧ u.frm = th.frm ∧ u.ftrap = th.ftrap
      ∧ u.flagorg = th.flagorg ∧ u.uepc = th.uepc ∧ u.ucause = th.ucause ∧ u.uval = th.uval ∧ u.uskip = th.uskip
      ∧ u.utvec = th.utvec ∧ u.mxcfg = th.mxcfg ∧ u.mxcnt = th.mxcnt ∧ u.instret = th.instret ∧ u.mult = th.mult
      ∧ u.live = th.live ∧ u.wid = th.wid ∧ u.cell = th.cell ∧ u.privbase = th.privbase ∧ u.place = th.place)
  ∧ (∀ (s : State) (t : Nat) (th : Thread) (pc : Word) (tr : Trap) (skip : Nat),
    s.thread t = some th → th.mode = .user → th.utvec ≠ 0 → (s.csrsOf th).deleg.getLsbD tr.cause.code = true →
    (tr.cause ∈ [.fetchFault, .misalignedFetch, .instructionUncorrectable] → th.entered = .no ∧ th.pc ≠ th.utvec) →
    let fixed : List Nat := [2, 8, 39, 53, 54, 55, 56, 57, 58, 59, 60, 61, 62, 63]
    (tr.cause.code ∉ fixed →
      ∃ u : Thread, s.takeTrapAt t pc tr skip = s.putThread t u
        ∧ u.uepc = pc ∧ u.ucause = BitVec.ofNat 64 tr.cause.code ∧ u.uval = tr.val ∧ u.uskip = BitVec.ofNat 64 skip
        ∧ u.pc = th.utvec ∧ u.mode = .user ∧ u.trapUntil = some (s.cycle + 16) ∧ u.epc = th.epc ∧ u.cause = th.cause
        ∧ u.eval = th.eval ∧ u.eskip = th.eskip ∧ u.emode = th.emode ∧ u.x = th.x ∧ u.v = th.v ∧ u.m = th.m
        ∧ u.fflags = th.fflags ∧ u.instret = th.instret ∧ u.place = th.place)
    ∧ (tr.cause.code ∈ fixed → tr.cause ≠ .machineCheck → tr.cause ≠ .contextSwapError →
      ∃ u : Thread, s.takeTrapAt t pc tr skip = s.putThread t u ∧ u.mode = .supervisor ∧ u.pc = (s.csrsOf th).tvec
        ∧ u.uepc = th.uepc))
  ∧ (∀ (s : State) (t : Nat) (th : Thread) (pc : Word) (tr : Trap) (skip : Nat), s.thread t = some th →
    (th.entered = .supervisor ∧ tr.cause ∈ [.fetchFault, .misalignedFetch, .instructionUncorrectable]
      ∨ tr.cause = .machineCheck) →
    s.takeTrapAt t pc tr skip = (s.removeThread t).logEvent .machineCheck th.place.handle tr.val 0)
  ∧ (∀ (s : State) (t : Nat) (th : Thread) (pc : Word) (tr : Trap) (skip : Nat), s.thread t = some th → tr.cause = .contextSwapError →
    s.takeTrapAt t pc tr skip = (s.removeThread t).logEvent .contextSwapError th.place.handle tr.val 0)

/-- R126: ECALL traps ECALL_USER or ECALL_SUPERVISOR by the mode and EBREAK traps BREAKPOINT, each at its own address with EVAL 0;
here with no delegation: the thread is in supervisor mode at TVEC.

R127: TRET goes to EPC with the mode of EMODE in supervisor mode, and to UEPC in user mode, where it stays; the slot is TRAPPING for
16 cycles. With a skip k the instruction at the return point runs once and the thread resumes at pc + 4 × (k + 1). A saved
PC that is no multiple of 4 traps MISALIGNED_FETCH at the TRET. The trap registers stay. A TRET that another TRET re-executes has that one's
resumption and no skip of its own (log 68). -/
def Obligations.SystemCallsTrapAndTretReturns : Prop :=
  (∀ (s : State) (th : Thread), s.current = some th → th.utvec = 0 →
    let traps := fun (i : Instr) (code : Word) =>
      ∃ u : Thread, exec i s = .next (s.putThread s.cur u) ∧ u.epc = th.pc ∧ u.cause = code ∧ u.eval = 0 ∧ u.eskip = 0
        ∧ u.emode = th.mode ∧ u.mode = .supervisor ∧ u.pc = (s.csrsOf th).tvec ∧ u.x = th.x ∧ u.instret = th.instret
    traps .ecall (if th.mode = .user then 7 else 8) ∧ traps .ebreak 6)
  ∧ (∀ (s : State) (th : Thread), s.current = some th → th.redo = none →
    let pc := if th.mode = .supervisor then th.epc else th.uepc
    let k := if th.mode = .supervisor then th.eskip else th.uskip
    (pc.extractLsb' 0 2 = 0 →
      ∃ u : Thread, exec .tret s = .next (s.putThread s.cur u) ∧ u.pc = pc
        ∧ u.mode = (if th.mode = .supervisor then th.emode else .user) ∧ u.trapUntil = some (s.cycle + 16)
        ∧ u.redo = (if k = 0 then none else some (pc + 4 * (k + 1))) ∧ u.instret = th.instret + 1
        ∧ u.x = th.x ∧ u.v = th.v ∧ u.m = th.m ∧ u.epc = th.epc ∧ u.cause = th.cause ∧ u.eval = th.eval
        ∧ u.eskip = th.eskip ∧ u.emode = th.emode ∧ u.uepc = th.uepc ∧ u.uskip = th.uskip ∧ u.fflags = th.fflags)
    ∧ (pc.extractLsb' 0 2 ≠ 0 → exec .tret s = .next (s.takeTrap s.cur { cause := .misalignedFetch, val := pc })))
  ∧ (∀ (s : State) (th : Thread) (back : Word), s.current = some th → th.redo = some back →
    (if th.mode = .supervisor then th.epc else th.uepc).extractLsb' 0 2 = 0 →
      ∃ u : Thread, exec .tret s = .next (s.putThread s.cur u) ∧ u.pc = back ∧ u.redo = none ∧ u.instret = th.instret + 1
        ∧ u.mode = (if th.mode = .supervisor then th.emode else .user) ∧ u.trapUntil = some (s.cycle + 16))

/-- R64 and R125: TLBINV, CTXOUT, CTXIN, HALT and WFI trap PRIVILEGED in user mode, with the word's address as EVAL, and do nothing
else.

R128, R129, R132 and R133 in supervisor mode (FENCEI in both): FENCEI discards the core's instruction cache; TLBINV with x0 in both
fields empties every TLB of the package once no access of another thread is outstanding; HALT logs the handle and X[a] and
removes the thread; WFI completes at once with reason 0 when the mailbox holds an entry for the thread, else with 1 when
the cluster's doorbell is pending, which it clears, and else waits with its limit. -/
def Obligations.PrivilegedInstructionsActOrTrap : Prop :=
  (∀ (s : State) (th : Thread) (d a b : Reg), s.current = some th → th.mode = .user →
    ∀ i ∈ [Instr.tlbinv a b, .ctxout d a b, .ctxin d a b, .halt a, .wfi d a],
      exec i s = .next (s.takeTrap s.cur { cause := .privileged, val := th.pc }))
  ∧ (∀ (s : State) (th : Thread) (d a : Reg), s.current = some th →
    let cl := clusterOfCore th.core
    exec .fencei s = ends (s.putCore th.core { s.core th.core with icache := [] }) th
    ∧ (th.mode = .supervisor →
      (selectedOutstanding s none none = false →
        exec (.tlbinv 0 0) s = ends { s with cores := s.cores.map (fun p => (p.1, { p.2 with tlb := [] })),
                                             clusters := s.clusters.map (fun p =>
                                               (p.1, { p.2 with tlb := p.2.tlb.map (fun q => (q.1, [])) })) } th)
      ∧ exec (.halt a) s = .next ((s.removeThread s.cur).logEvent .halt th.place.handle (th.getX a) 0)
      ∧ (mailCount s th.place.handle ≠ 0 → exec (.wfi d a) s = ends s (th.setX d 0))
      ∧ (mailCount s th.place.handle = 0 → (s.cluster cl).doorbell = true →
        exec (.wfi d a) s = ends (s.putCluster cl { s.cluster cl with doorbell := false }) (th.setX d 1))
      ∧ (mailCount s th.place.handle = 0 → (s.cluster cl).doorbell = false →
        ∃ u, exec (.wfi d a) s = .next (s.putThread s.cur u) ∧ u.x = th.x ∧ u.pc = th.pc
          ∧ u.wait = some (.wfi d (if th.getX a = 0 then none else some (s.cycle + (th.getX a).toNat)) []))))

/-- R130 and R131: CTXOUT of the issuer's own slot writes 2 to X[d] and of an EMPTY slot 1, and saves nothing. Of a slot whose thread
stands at an instruction boundary it writes the thread's 4,864-byte record at X[b], as supervisor stores, takes the thread
out of its slot, which becomes EMPTY, and writes 0; until that thread stands at one it waits for it, an instruction that TRET re-executes included (log 26).
X[b] outside GLOBAL space traps SPACE_INVALID and one not aligned to 256 traps STORE_MISALIGNED. CTXIN into a slot that is not EMPTY
writes 1; a record that cannot be read, or fails its checks, traps CONTEXT_RECORD_INVALID with EVAL X[a], and one with a word of an L page
that is being evaluated makes it wait as a load does (R319). A record whose thread keeps its handle (R263) is refused in another slot with 3.
One whose thread is not one that CTXOUT saved from this machine comes back as a new thread (log 18), read with loads of 8 bytes (log 62).

R99: the record of a thread, word by word: x, v and m registers, PC, STATE, the CSRs in their order, and CHECK, whose [63:32] is the XOR
of the record's first 4,832 bytes as 32-bit words. 'Tiles held' is their number (log 58).

R29, R99 and R100: the record that a bound thread is saved in passes the checks of R100, and reloading it gives every register and CSR
back as it was, each cut to its register's width. -/
def Obligations.ContextsAreSavedAndRestored : Prop :=
  (∀ (s : State) (th : Thread) (d a b : Reg), s.current = some th → th.mode = .supervisor →
    let out := (th.getX a).toNat % 16
    let dest := (th.getX b).toNat % 16
    let ptr := th.getX b
    let empty := ∀ p ∈ s.threads, p.2.place ≠ .slot (handleOf th.core dest) ∧ p.2.place ≠ .arriving (handleOf th.core dest)
    (out = slotOfHandle th.place.handle → exec (.ctxout d a b) s = ends s (th.setX d 2))
    ∧ (out ≠ slotOfHandle th.place.handle → s.inSlot (handleOf th.core out) = none →
      exec (.ctxout d a b) s = ends s (th.setX d 1))
    ∧ (∀ t x, out ≠ slotOfHandle th.place.handle → s.inSlot (handleOf th.core out) = some (t, x) →
      (ptr.extractLsb' 60 4 ≠ 0 → exec (.ctxout d a b) s = .next (s.takeTrap s.cur { cause := .spaceInvalid, val := ptr }))
      ∧ (ptr.extractLsb' 60 4 = 0 → ptr.extractLsb' 0 8 ≠ 0 →
        exec (.ctxout d a b) s = .next (s.takeTrap s.cur { cause := .storeMisaligned, val := ptr }))
      ∧ (ptr.extractLsb' 60 4 = 0 → ptr.extractLsb' 0 8 = 0 → x.canLeave = false →
        ∃ u, exec (.ctxout d a b) s = .next (s.putThread s.cur u) ∧ u.wait = some (.ctxout d t ptr) ∧ u.x = th.x ∧ u.pc = th.pc)
      ∧ (∀ s1, ptr.extractLsb' 60 4 = 0 → ptr.extractLsb' 0 8 = 0 → x.canLeave = true →
        let saved := { x with wait := none, window := none, preempt := false }
        storeWordsAt s (cxOf s th) th.place.handle ptr (recordWords s t saved x.place.handle) = .ok s1 →
        exec (.ctxout d a b) s = .next (((s1.putThread t { saved with place := .out x.place.handle ptr }).freeSlot x.place.handle).retireX d 0)))
    ∧ ((∃ p ∈ s.threads, p.2.place = .slot (handleOf th.core dest) ∨ p.2.place = .arriving (handleOf th.core dest)) →
      exec (.ctxin d a b) s = ends s (th.setX d 1))
    ∧ (empty → ∀ tr, (loadTags s th (th.getX a) 608 = .error (some tr)
        ∨ loadTags s th (th.getX a) 608 = .ok none ∧ loadWords s (cxOf s th) th.place.handle (th.getX a) 608 = .error (some tr)) →
      exec (.ctxin d a b) s = .next (s.takeTrap s.cur { cause := .contextRecordInvalid, val := th.getX a }))
    ∧ (empty → ∀ s1, loadTags s th (th.getX a) 608 = .ok (some s1) → exec (.ctxin d a b) s = .next s1)
    ∧ (empty → loadTags s th (th.getX a) 608 = .ok none → ∀ l s1, loadWords s (cxOf s th) th.place.handle (th.getX a) 608 = .ok (l, s1) →
      (recordValid l = false ∨ recordCoreOk l th.core = false →
        exec (.ctxin d a b) s = .next (s.takeTrap s.cur { cause := .contextRecordInvalid, val := th.getX a }))
      ∧ (∀ t x, recordValid l = true → recordCoreOk l th.core = true →
        savedThread s l ((recordAt l 4832).extractLsb' 0 17).toNat = some (t, x) → keepsHandle s t x = true →
        ((recordAt l 4832).extractLsb' 0 17).toNat ≠ handleOf th.core dest → exec (.ctxin d a b) s = ends s (th.setX d 3))
      ∧ (recordValid l = true → recordCoreOk l th.core = true →
        savedThread s l ((recordAt l 4832).extractLsb' 0 17).toNat = none →
        let lctx := ((recordAt l 4696).extractLsb' 0 16).toNat
        (servesOrCan s th.core lctx = false → exec (.ctxin d a b) s = ends s (th.setX d 2))
        ∧ (servesOrCan s th.core lctx = true →
          let s2 := takeContext s1 th.core lctx
          let x := loadRecord (Thread.reset (.arriving (handleOf th.core dest)) s2.seq s2.cycle) l
          exec (.ctxin d a b) s = .next (({ s2 with nextTid := s2.nextTid + 1 }.putThread s2.nextTid
            { x with place := .arriving (handleOf th.core dest) }).retireX d 0)))))
  ∧ (∀ (s : State) (t : Nat) (th : Thread) (h : Nat), th.wake = false → th.wait = none →
    let l := recordWords s t th h
    let csrs : List Word := [th.fflags.zeroExtend 64, th.frm.zeroExtend 64, th.ftrap.zeroExtend 64, th.flagorg, th.mult.zeroExtend 64,
      th.live.zeroExtend 64, th.wid]
    let rest : List Word := [th.cell, th.widself, th.privbase, th.instret, th.utvec, th.uepc, th.ucause, th.uval, th.uskip, th.mxcfg,
      th.mxcnt, th.epc, th.cause, th.eval, th.eskip, if th.emode = .supervisor then 1 else 0]
    l.length = 608
    ∧ (∀ r : Reg, recordAt l (8 * r.toNat) = th.getX r)
    ∧ (∀ (r : VReg) (j : Nat), j < 32 → recordAt l (256 + 256 * r.toNat + 8 * j) = (th.getV r).extractLsb' (64 * j) 64)
    ∧ (∀ (r : MReg) (j : Nat), r ≠ 0 → j < 4 → recordAt l (4320 + 32 * r.toNat + 8 * j) = (th.getM r).extractLsb' (64 * j) 64)
    ∧ recordAt l 4576 = th.pc
    ∧ (recordAt l 4584).toNat = (if th.mode = .supervisor then 1 else 0)
      + 256 * ((s.core th.core).tiles.toList.filter (fun x => x.holder == some t)).length
    ∧ (∀ i, i < 7 → recordAt l (4592 + 8 * i) = csrs.getD i 0)
    ∧ (∀ i, i < 6 → recordAt l (4648 + 8 * i) = wfOf (widthsOf s th) th.wid (i + 1))
    ∧ (recordAt l 4696).extractLsb' 0 16 = th.lctx
    ∧ (∀ i, i < 16 → recordAt l (4704 + 8 * i) = rest.getD i 0)
    ∧ (recordAt l 4832).extractLsb' 0 17 = BitVec.ofNat 17 h ∧ (recordAt l 4832).extractLsb' 17 15 = 0
    ∧ (recordAt l 4832).extractLsb' 32 32
      = (l.take 604).foldl (fun acc w => acc ^^^ w.extractLsb' 0 32 ^^^ w.extractLsb' 32 32) 0
    ∧ (∀ i, 604 < i → i < 608 → recordAt l (8 * i) = 0))
  ∧ (∀ (s : State) (t : Nat) (th base : Thread) (h : Nat), th.wake = false → th.wait = none →
    let l := recordWords s t th h
    let u := loadRecord base l
    recordValid l = true
    ∧ (∀ r, u.getX r = th.getX r) ∧ (∀ r, u.getV r = th.getV r) ∧ (∀ r, u.getM r = th.getM r) ∧ u.pc = th.pc ∧ u.mode = th.mode
    ∧ u.fflags = th.fflags ∧ u.frm = th.frm ∧ u.ftrap = th.ftrap ∧ u.flagorg = th.flagorg ∧ u.mult = th.mult
    ∧ u.live = th.live &&& ~~~1 ∧ u.wid = th.wid ∧ u.lctx = th.lctx ∧ u.cell = th.cell ∧ u.widself = th.widself
    ∧ u.privbase = th.privbase &&& 0x000FFFFFFFFF0000 ∧ u.instret = th.instret ∧ u.utvec = th.utvec &&& ~~~3 ∧ u.uepc = th.uepc
    ∧ u.ucause = th.ucause &&& 0x3F ∧ u.uval = th.uval ∧ u.uskip = th.uskip ∧ u.mxcfg = th.mxcfg &&& 7 ∧ u.mxcnt = th.mxcnt
    ∧ u.epc = th.epc ∧ u.cause = th.cause &&& 0x3F ∧ u.eval = th.eval ∧ u.eskip = th.eskip ∧ u.emode = th.emode)

/-! ### The vector engine -/

/-- R203 and R206, every row: a VFP instruction gives each enabled element the value of its row, of A, B and D read before anything is
written; an element that the mask turns off keeps its value and raises nothing; the other registers stay. The arithmetic
itself is that of the number formats (R188 to R196, R207, R208), which ScalarFloatsComputeTheirRow states. -/
def Obligations.FloatVectorsComputeTheirRow : Prop :=
  ∀ (s : State) (th : Thread) (d a b : VReg) (mk : MReg) (ty : BitVec 4) (F : Fmt) (w : Nat),
    s.current = some th → FloatType ty F w →
    let frm := th.frm
    let computes := fun (i : Instr) (g : Nat → Nat → Nat → FRes) =>
      let on := fun j => (th.getM mk).getLsbD j
      let r := fun j => g (element (th.getV a) w j).toNat (element (th.getV b) w j).toNat (element (th.getV d) w j).toNat
      RaisesOrTraps s th i (2048 / w) (fun j => if on j then (r j).2 else 0)
        (fun u => ∃ v : VWord, u = th.setV d v ∧ ∀ j, j < 2048 / w →
          element v w j = if on j then BitVec.ofNat w (r j).1 else element (th.getV d) w j)
    computes (.vadd d a b mk ty) (fun A B _ => F.add frm A B) ∧ computes (.vsub d a b mk ty) (fun A B _ => F.sub frm A B)
    ∧ computes (.vmul d a b mk ty) (fun A B _ => F.mul frm A B) ∧ computes (.vdiv d a b mk ty) (fun A B _ => F.div frm A B)
    ∧ computes (.vfma d a b mk ty) (fun A B D => F.fma frm false false A B D)
    ∧ computes (.vfms d a b mk ty) (fun A B D => F.fma frm false true A B D)
    ∧ computes (.vfnma d a b mk ty) (fun A B D => F.fma frm true false A B D)
    ∧ computes (.vmin d a b mk ty) (fun A B _ => F.minMax false A B)
    ∧ computes (.vmax d a b mk ty) (fun A B _ => F.minMax true A B)
    ∧ computes (.vabs d a mk ty) (fun A _ _ => F.signOp (fun _ => false) A)
    ∧ computes (.vneg d a mk ty) (fun A _ _ => F.signOp (fun n => !n) A)
    ∧ computes (.vsqrt d a mk ty) (fun A _ _ => F.sqrt frm A) ∧ computes (.vrsq d a mk ty) (fun A _ _ => F.rsq A)
    ∧ computes (.vrcp d a mk ty) (fun A _ _ => F.rcp A) ∧ computes (.vexp2 d a mk ty) (fun A _ _ => F.exp2 A)
    ∧ computes (.vlog2 d a mk ty) (fun A _ _ => F.log2 A) ∧ computes (.vclass d a mk ty) (fun A _ _ => (F.classOf A, 0))

/-- R209, the whole table: a VINT instruction gives each enabled element the value of its row modulo 2^w, raises no flag and retires;
elements that the mask turns off keep their values. -/
def Obligations.IntegerVectorsComputeTheirRow : Prop :=
  ∀ (s : State) (th : Thread) (d a b : VReg) (mk : MReg) (ty : BitVec 4) (w : Nat), s.current = some th → IntType ty w →
    let computes := fun (i : Instr) (g : BitVec w → BitVec w → BitVec w) =>
      ∃ v : VWord, exec i s = retires s (th.setV d v) ∧ ∀ j, j < 2048 / w →
        element v w j = if (th.getM mk).getLsbD j then g (element (th.getV a) w j) (element (th.getV b) w j)
          else element (th.getV d) w j
    let k := fun (B : BitVec w) => (B &&& BitVec.ofNat w (w - 1)).toNat
    computes (.viadd d a b mk ty) (fun A B => A + B) ∧ computes (.visub d a b mk ty) (fun A B => A - B)
    ∧ computes (.vimul d a b mk ty) (fun A B => A * B) ∧ computes (.vand d a b mk ty) (fun A B => A &&& B)
    ∧ computes (.vor d a b mk ty) (fun A B => A ||| B) ∧ computes (.vxor d a b mk ty) (fun A B => A ^^^ B)
    ∧ computes (.vsll d a b mk ty) (fun A B => A <<< k B) ∧ computes (.vsrl d a b mk ty) (fun A B => A >>> k B)
    ∧ computes (.vsra d a b mk ty) (fun A B => A.sshiftRight (k B))
    ∧ computes (.vimin d a b mk ty) (fun A B => if B.slt A then B else A)
    ∧ computes (.vimax d a b mk ty) (fun A B => if A.slt B then B else A)
    ∧ computes (.viminn d a b mk ty) (fun A B => if B.ult A then B else A)
    ∧ computes (.vimaxn d a b mk ty) (fun A B => if A.ult B then B else A)

/-- R210: VCMP writes the condition to the mask bit of each enabled element; bits of disabled elements keep their old values and the
bits from N up are zero. On integer types it raises nothing; on float types it raises NV for a signalling NaN, and for lt
and le for any NaN. `order` is none when an operand is a NaN; −0 and +0 are equal. -/
def Obligations.ComparisonsWriteMaskBits : Prop :=
  ∀ (s : State) (th : Thread) (d : MReg) (a b : VReg) (mk : MReg) (ty : BitVec 4) (w : Nat), s.current = some th →
    let on := fun j => (th.getM mk).getLsbD j
    let A := fun j => element (th.getV a) w j
    let B := fun j => element (th.getV b) w j
    let writes := fun (i : Instr) (c : Nat → Bool) (fl : Nat → BitVec 5) =>
      RaisesOrTraps s th i (2048 / w) (fun j => if on j then fl j else 0)
        (fun u => ∃ m : MWord, u = th.setM d m ∧ ∀ j, j < 256 →
          m.getLsbD j = (decide (j < 2048 / w) && if on j then c j else (th.getM d).getLsbD j))
    (∀ F, FloatType ty F w →
      let order := fun j => (F.decode (A j).toNat).compare (F.decode (B j).toNat)
      let isSig := fun j => (F.decode (A j).toNat).isSignalling || (F.decode (B j).toNat).isSignalling
      let isNaN := fun j => (F.decode (A j).toNat).isNaN || (F.decode (B j).toNat).isNaN
      let nv := fun (c : Nat → Bool) j => if c j then (1 : BitVec 5) else 0
      writes (.vcmpEq d a b mk ty) (fun j => order j == some .eq) (nv isSig)
      ∧ writes (.vcmpNe d a b mk ty) (fun j => order j != some .eq) (nv isSig)
      ∧ writes (.vcmpLt d a b mk ty) (fun j => order j == some .lt) (nv isNaN)
      ∧ writes (.vcmpLe d a b mk ty) (fun j => order j == some .lt || order j == some .eq) (nv isNaN)
      ∧ writes (.vcmpUn d a b mk ty) isNaN (nv isSig))
    ∧ (IntType ty w →
      let none' := fun (_ : Nat) => (0 : BitVec 5)
      writes (.vcmpEq d a b mk ty) (fun j => A j == B j) none' ∧ writes (.vcmpNe d a b mk ty) (fun j => A j != B j) none'
      ∧ writes (.vcmpLt d a b mk ty) (fun j => (A j).slt (B j)) none'
      ∧ writes (.vcmpLe d a b mk ty) (fun j => (A j).sle (B j)) none'
      ∧ writes (.vcmpLtn d a b mk ty) (fun j => (A j).ult (B j)) none'
      ∧ writes (.vcmpLen d a b mk ty) (fun j => (A j).ule (B j)) none')

/-- R211, the whole table: each VMOVE instruction moves raw element bits, raises no flag and retires. `low` is the lowest enabled
element below N. -/
def Obligations.VectorMovesCarryRawBits : Prop :=
  ∀ (s : State) (th : Thread) (d a b : VReg) (x : Reg) (mk : MReg) (ty : BitVec 4) (w : Nat), s.current = some th →
    (IntType ty w ∨ ∃ F, FloatType ty F w) →
    let N := 2048 / w
    let on := fun j => (th.getM mk).getLsbD j
    let A := fun j => element (th.getV a) w j
    let B := fun j => element (th.getV b) w j
    let D := fun j => element (th.getV d) w j
    let X : BitVec w := (th.getX x).extractLsb' 0 w
    let writes := fun (i : Instr) (e : Nat → BitVec w) =>
      ∃ v : VWord, exec i s = retires s (th.setV d v) ∧ ∀ j, j < N → element v w j = e j
    let low := fun f => f < N ∧ on f = true ∧ ∀ j, j < f → on j = false
    writes (.vsel d a b mk ty) (fun j => if on j then A j else B j)
    ∧ writes (.vperm d a b mk ty) (fun j => if on j then A ((B j).toNat % N) else D j)
    ∧ writes (.vbcast d x mk ty) (fun j => if on j then X else D j)
    ∧ (∀ f, low f → exec (.vext x b mk ty) s = retires s (th.setX x (if 3 ≤ ty.toNat then (B f).signExtend 64 else (B f).zeroExtend 64)))
    ∧ ((∀ j, j < N → on j = false) → exec (.vext x b mk ty) s = retires s (th.setX x 0))
    ∧ (∀ f, low f → writes (.vins d x mk ty) (fun j => if j = f then X else D j))
    ∧ ((∀ j, j < N → on j = false) → writes (.vins d x mk ty) D)
    ∧ (3 ≤ ty.toNat → writes (.viota d mk ty) (fun j => if on j then BitVec.ofNat w j else D j))
    ∧ writes (.vmv d a mk ty) (fun j => if on j then A j else D j)
    ∧ writes (.vslide d a b mk ty) (fun j =>
        let from_ : Int := j - b.toInt
        if on j then (if 0 ≤ from_ ∧ from_ < N then A from_.toNat else 0) else D j)

/-- R212: a VCVT works on 64 lanes under bits 0 to 63 of the mask; lane j's source has `sw` bits and its result `dw` bits, and elements at 64
and above of a narrow destination stay. Narrowings round under FRM (R193), widenings are exact (R194). -/
def Obligations.VectorConversionsWorkOn64Lanes : Prop :=
  ∀ (s : State) (th : Thread) (d a : VReg) (mk : MReg), s.current = some th →
    let frm := th.frm
    let converts := fun (i : Instr) (sw dw : Nat) (g : Nat → FRes) =>
      let on := fun j => decide (j < 64) && (th.getM mk).getLsbD j
      let r := fun j => g (element (th.getV a) sw j).toNat
      RaisesOrTraps s th i (2048 / dw) (fun j => if on j then (r j).2 else 0)
        (fun u => ∃ v : VWord, u = th.setV d v ∧ ∀ j, j < 2048 / dw →
          element v dw j = if on j then BitVec.ofNat dw (r j).1 else element (th.getV d) dw j)
    converts (.vcvtF32Bf16 d a mk) 32 16 (fun A => bf16.narrow frm (fp32.decode A))
    ∧ converts (.vcvtF32F16 d a mk) 32 16 (fun A => fp16.narrow frm (fp32.decode A))
    ∧ converts (.vcvtF32E4m3 d a mk) 32 8 (fun A => e4m3.narrow frm (fp32.decode A))
    ∧ converts (.vcvtF32E5m2 d a mk) 32 8 (fun A => e5m2.narrow frm (fp32.decode A))
    ∧ converts (.vcvtBf16F32 d a mk) 16 32 (fun A => fp32.widen (bf16.decode A))
    ∧ converts (.vcvtF16F32 d a mk) 16 32 (fun A => fp32.widen (fp16.decode A))
    ∧ converts (.vcvtE4m3F32 d a mk) 8 32 (fun A => fp32.widen (e4m3.decode A))
    ∧ converts (.vcvtE5m2F32 d a mk) 8 32 (fun A => fp32.widen (e5m2.decode A))
    ∧ converts (.vcvtF32I32 d a mk) 32 32 (fun A => toInteger 32 frm (fp32.decode A))
    ∧ converts (.vcvtI32F32 d a mk) 32 32 (fun A => fp32.narrow frm (intVal 32 A))
    ∧ converts (.vcvtI8I32 d a mk) 8 32 (fun A => (((BitVec.ofNat 8 A).signExtend 32).toNat, 0))
    ∧ converts (.vcvtI32I8 d a mk) 32 8 (fun A =>
        let v := (BitVec.ofNat 32 A).toInt
        if v < -128 then (128, 20) else if 127 < v then (127, 20) else (A % 256, 0))

/-- R213, R214 and R215 on integer types: VRSUM, VRMAX and VRMIN write the sum modulo 2^w, the greatest and the least of the enabled
elements to element 0 (0, the least and the greatest integer when none is enabled) and keep the rest; VSCAN writes at each
enabled element the sum of the enabled ones up to it; VTOPK writes the indices of the enabled elements, greater values
first and equal ones in ascending order, and all ones after them. No flag is raised.

R213, R214, R215 and R216 on float types: the reductions combine the enabled elements over the fixed tree of log2 N levels, in which an
element that meets nothing passes as it is, a NaN as the canonical one, and each addition rounds under FRM; every node's flags are
raised; with none enabled VRSUM gives +0, VRMAX −∞ and VRMIN +∞. VSCAN adds one enabled element after another, and each
step raises its flags at its index. VTOPK ranks numbers above NaNs and raises NV for a signalling NaN. -/
def Obligations.ReductionsCombineEnabledElements : Prop :=
  (∀ (s : State) (th : Thread) (d a : VReg) (mk : MReg) (ty : BitVec 4) (w : Nat), s.current = some th → IntType ty w →
    let N := 2048 / w
    let A := fun j => element (th.getV a) w j
    let D := fun j => element (th.getV d) w j
    let on := (List.range N).filter (fun j => (th.getM mk).getLsbD j)
    let writes := fun (i : Instr) (e : Nat → BitVec w) =>
      ∃ v : VWord, exec i s = retires s (th.setV d v) ∧ ∀ j, j < N → element v w j = e j
    let sum := fun (l : List Nat) => l.foldl (fun (acc : BitVec w) j => acc + A j) 0
    writes (.vrsum d a mk ty) (fun j => if j = 0 then sum on else D j)
    ∧ writes (.vrmax d a mk ty) (fun j => if j = 0 then
        on.foldl (fun acc k => if acc.slt (A k) then A k else acc) (BitVec.intMin w) else D j)
    ∧ writes (.vrmin d a mk ty) (fun j => if j = 0 then
        on.foldl (fun acc k => if (A k).slt acc then A k else acc) (BitVec.intMax w) else D j)
    ∧ writes (.vscan d a mk ty) (fun j => if (th.getM mk).getLsbD j then sum (on.filter (fun k => decide (k ≤ j))) else D j)
    ∧ ∃ ranks : List Nat, ranks.Perm on
        ∧ ranks.Pairwise (fun i j => (A j).slt (A i) = true ∨ A i = A j ∧ i < j)
        ∧ writes (.vtopk d a mk ty) (fun j => match ranks[j]? with
          | some i => BitVec.ofNat w i
          | none => BitVec.allOnes w))
  ∧ (∀ (s : State) (th : Thread) (d a : VReg) (mk : MReg) (ty : BitVec 4) (F : Fmt) (w : Nat), s.current = some th →
    FloatType ty F w →
    let N := 2048 / w
    let A := fun j => (element (th.getV a) w j).toNat
    let on := fun j => (th.getM mk).getLsbD j
    let levels := if w = 32 then 6 else 7
    let reduces := fun (i : Instr) (op : Nat → Nat → FRes) (empty : Nat) =>
      let node := treeNode F op (fun j => if on j then some (A j) else none)
      ∃ fl : BitVec 5,
        (∀ c, fl.getLsbD c = true ↔ ∃ l j, l < levels ∧ j < N / 2 ^ (l + 1)
          ∧ (combine F op (node l (2 * j)) (node l (2 * j + 1))).2.getLsbD c = true)
        ∧ RaisesOrTraps s th i 1 (fun _ => fl)
          (fun u => ∃ v : VWord, u = th.setV d v ∧ ∀ j, j < N →
            element v w j = if j = 0 then BitVec.ofNat w ((node levels 0).getD empty) else element (th.getV d) w j)
    reduces (.vrsum d a mk ty) (F.add th.frm) 0
    ∧ reduces (.vrmax d a mk ty) (F.minMax true) (F.infinity true)
    ∧ reduces (.vrmin d a mk ty) (F.minMax false) (F.infinity false)
    ∧ (let run := runBefore F (F.add th.frm) on A
      RaisesOrTraps s th (.vscan d a mk ty) N
        (fun j => if on j then (combine F (F.add th.frm) (run j) (some (A j))).2 else 0)
        (fun u => ∃ v : VWord, u = th.setV d v ∧ ∀ j, j < N →
          element v w j = if on j then BitVec.ofNat w ((run (j + 1)).getD 0) else element (th.getV d) w j))
    ∧ (let sig := (List.range N).any (fun j => on j && (F.decode (A j)).isSignalling)
      let above := fun i j => ¬ (F.decode (A i)).isNaN ∧ ((F.decode (A j)).isNaN
        ∨ (F.decode (A i)).compare (F.decode (A j)) = some .gt)
      ∃ ranks : List Nat, ranks.Perm ((List.range N).filter on)
        ∧ ranks.Pairwise (fun i j => above i j ∨ ¬ above j i ∧ i < j)
        ∧ RaisesOrTraps s th (.vtopk d a mk ty) 1 (fun _ => if sig then 1 else 0)
          (fun u => ∃ v : VWord, u = th.setV d v ∧ ∀ j, j < N → element v w j = match ranks[j]? with
            | some i => BitVec.ofNat w i
            | none => BitVec.allOnes w)))

/-- R217, the whole table: the mask instructions work on all 256 bits; MPOP counts and MFIRST finds the lowest set bit below N (all ones
when there is none); MSET sets bits 0 to k − 1 with k = kh × 16 + kl. A write to m0 is discarded (R94). -/
def Obligations.MaskInstructionsWriteTheirBits : Prop :=
  ∀ (s : State) (th : Thread) (d a b : MReg) (x : Reg) (kl kh ty : BitVec 4) (w : Nat), s.current = some th →
    (IntType ty w ∨ ∃ F, FloatType ty F w) →
    let N := 2048 / w
    let writes := fun (i : Instr) (e : Nat → Bool) =>
      ∃ m : MWord, exec i s = retires s (th.setM d m) ∧ ∀ j, j < 256 → m.getLsbD j = e j
    let A := fun j => (th.getM a).getLsbD j
    let B := fun j => (th.getM b).getLsbD j
    writes (.mand d a b) (fun j => A j && B j) ∧ writes (.mor d a b) (fun j => A j || B j)
    ∧ writes (.mxor d a b) (fun j => A j ^^ B j) ∧ writes (.mnot d a) (fun j => !A j)
    ∧ exec (.mpop x b ty) s = retires s (th.setX x (BitVec.ofNat 64 ((List.range N).countP B)))
    ∧ (∀ f, f < N → B f = true → (∀ j, j < f → B j = false) → exec (.mfirst x b ty) s = retires s (th.setX x (BitVec.ofNat 64 f)))
    ∧ ((∀ j, j < N → B j = false) → exec (.mfirst x b ty) s = retires s (th.setX x (BitVec.allOnes 64)))
    ∧ writes (.mset d kl kh) (fun j => decide (j < kh.toNat * 16 + kl.toNat))
    ∧ (∀ m, (th.setM 0 m) = th)

/-- R218 and R219, every row: the scalar floating-point instructions work on bits [31:0] of their operands, with the arithmetic of the
vector rows on one FP32 element; an FP32 result is zero-extended, and FFMA also reads X[d].

R181 to R184: the formats' fields and codes. R188 to R196: the arithmetic that the scalar and vector rows name is that of exact numbers,
rounded once. Sums, products, fused products, quotients, square roots, reciprocals, narrowings, widenings and conversions to
integers give the exact result rounded under the mode, with the overflow, the flags and the special values of their rules. EXP2 and
LOG2 round to nearest even a number within 2^−200 (as a part of it) and 2^−180 of the function's value (log 15), and the exact value
where it is a power of two or an integer. Comparisons order exact values, and an integer operand is its exact signed value.

R207 and R208: a minimum or maximum is the other operand beside one NaN and the canonical NaN of two, with NV for a signalling one, and
puts −0 below +0; VABS and VNEG change the sign of a number and raise nothing; the class of a value is its bit of the table. -/
def Obligations.ScalarFloatsComputeTheirRow : Prop :=
  (∀ (s : State) (th : Thread) (d a b : Reg), s.current = some th →
    let frm := th.frm
    let low := fun (r : Reg) => ((th.getX r).extractLsb' 0 32).toNat
    let A := low a
    let B := low b
    let computes := fun (i : Instr) (r : FRes) =>
      RaisesOrTraps s th i 1 (fun _ => r.2) (fun u => u = th.setX d (BitVec.ofNat 64 r.1))
    let order := (fp32.decode A).compare (fp32.decode B)
    let isSig := (fp32.decode A).isSignalling || (fp32.decode B).isSignalling
    let isNaN := (fp32.decode A).isNaN || (fp32.decode B).isNaN
    let test := fun (c nv : Bool) => ((if c then 1 else 0, if nv then 1 else 0) : FRes)
    computes (.fadd d a b) (fp32.add frm A B) ∧ computes (.fsub d a b) (fp32.sub frm A B)
    ∧ computes (.fmul d a b) (fp32.mul frm A B) ∧ computes (.fdiv d a b) (fp32.div frm A B)
    ∧ computes (.fsqrt d a) (fp32.sqrt frm A) ∧ computes (.ffma d a b) (fp32.fma frm false false A B (low d))
    ∧ computes (.fmin d a b) (fp32.minMax false A B) ∧ computes (.fmax d a b) (fp32.minMax true A B)
    ∧ computes (.feq d a b) (test (order == some .eq) isSig) ∧ computes (.flt d a b) (test (order == some .lt) isNaN)
    ∧ computes (.fle d a b) (test (order == some .lt || order == some .eq) isNaN)
    ∧ computes (.fclass d a) (fp32.classOf A, 0) ∧ computes (.fexp2 d a) (fp32.exp2 A) ∧ computes (.flog2 d a) (fp32.log2 A)
    ∧ computes (.fcvtif d a 0) (fp32.narrow frm (intVal 32 A))
    ∧ computes (.fcvtif d a 1) (fp32.narrow frm (intVal 64 (th.getX a).toNat))
    ∧ computes (.fcvtif d a 2) (fp32.narrow frm (.fin false A 0))
    ∧ computes (.fcvtif d a 3) (fp32.narrow frm (.fin false (th.getX a).toNat 0))
    ∧ (let r := toInteger 32 frm (fp32.decode A)
      RaisesOrTraps s th (.fcvtfi d a 0) 1 (fun _ => r.2) (fun u => u = th.setX d ((BitVec.ofNat 32 r.1).signExtend 64)))
    ∧ computes (.fcvtfi d a 1) (toInteger 64 frm (fp32.decode A))
    ∧ computes (.fcvtfi d a 2) (toUnsigned 32 frm (fp32.decode A))
    ∧ computes (.fcvtfi d a 3) (toUnsigned 64 frm (fp32.decode A))
    ∧ computes (.fcvtff d a 0) (bf16.narrow frm (fp32.decode A)) ∧ computes (.fcvtff d a 1) (fp16.narrow frm (fp32.decode A))
    ∧ computes (.fcvtff d a 2) (e4m3.narrow frm (fp32.decode A)) ∧ computes (.fcvtff d a 3) (e5m2.narrow frm (fp32.decode A))
    ∧ computes (.fcvtff d a 4) (fp32.widen (bf16.decode (A % 2 ^ 16)))
    ∧ computes (.fcvtff d a 5) (fp32.widen (fp16.decode (A % 2 ^ 16)))
    ∧ computes (.fcvtff d a 6) (fp32.widen (e4m3.decode (A % 2 ^ 8)))
    ∧ computes (.fcvtff d a 7) (fp32.widen (e5m2.decode (A % 2 ^ 8))))
  ∧ ((fp32.canonicalNaN, fp16.canonicalNaN, bf16.canonicalNaN, e4m3.canonicalNaN, e5m2.canonicalNaN, fp40.canonicalNaN)
      = (0x7FC00000, 0x7E00, 0x7FC0, 0x7F, 0x7E, 0x7FC0000000)
    ∧ (fp32.maxFinite, fp16.maxFinite, bf16.maxFinite, e4m3.maxFinite, e5m2.maxFinite, fp40.maxFinite)
      = (0x7F7FFFFF, 0x7BFF, 0x7F7F, 0x7E, 0x7B, 0x7F7FFFFFFF)
    ∧ ∀ p ∈ ([(fp32, 8, 23, 127), (fp16, 5, 10, 15), (bf16, 8, 7, 127), (e4m3, 4, 3, 7), (e5m2, 5, 2, 15), (fp40, 8, 31, 127)] :
        List (Fmt × Nat × Nat × Nat)),
      let (F, eb, mb, bias) := p
      ∀ (neg : Bool) (e f : Nat), e < 2 ^ eb → f < 2 ^ mb →
        F.decode ((if neg then 2 ^ (eb + mb) else 0) + e * 2 ^ mb + f)
          = if F = e4m3 ∧ e = 15 ∧ f = 7 then .nan false
            else if F ≠ e4m3 ∧ e = 2 ^ eb - 1 then (if f = 0 then .inf neg else .nan (decide (f < 2 ^ (mb - 1))))
            else if e = 0 then .fin neg f (1 - (bias : Int) - mb)
            else .fin neg (2 ^ mb + f) ((e : Int) - bias - mb))
  ∧ (∀ F ∈ [fp32, fp16, bf16], ∀ (mode : BitVec 2) (a b c : Nat) (minusP minusC : Bool),
    let A := F.decode a
    let B := F.decode b
    let C := F.decode c
    SumsTo F mode A B (F.add mode a b) ∧ SumsTo F mode A (opposite B) (F.sub mode a b)
    ∧ ResultIs F mode (exactProduct A B) (F.mul mode a b)
    ∧ (match exactProduct (if minusP then opposite A else A) B with
      | none => F.fma mode minusP minusC a b c = (F.canonicalNaN, 1)
      | some P => SumsTo F mode P (if minusC then opposite C else C) (F.fma mode minusP minusC a b c))
    ∧ (match A, B with
      | .nan s, .nan t => F.div mode a b = (F.canonicalNaN, if s || t then 1 else 0)
      | .nan s, _ => F.div mode a b = (F.canonicalNaN, if s then 1 else 0)
      | _, .nan t => F.div mode a b = (F.canonicalNaN, if t then 1 else 0)
      | .inf _, .inf _ => F.div mode a b = (F.canonicalNaN, 1)
      | .inf n, .fin k _ _ => F.div mode a b = (F.infinity (n != k), 0)
      | .fin n _ _, .inf k => F.div mode a b = (F.sign (n != k) 0, 0)
      | .fin n m e, .fin k p g =>
        if p = 0 then F.div mode a b = (if m = 0 then (F.canonicalNaN, 1) else (F.infinity (n != k), 2))
        else if m = 0 then F.div mode a b = (F.sign (n != k) 0, 0)
        else RoundsTo F mode false ((exactOf (.fin n m e) / exactOf (.fin k p g) : ℚ) : ℝ) (F.div mode a b))
    ∧ (match A with
      | .nan s =>
        let r : FRes := (F.canonicalNaN, if s then 1 else 0)
        F.sqrt mode a = r ∧ F.rcp a = r ∧ F.rsq a = r ∧ F.exp2 a = r ∧ F.log2 a = r
      | .inf n =>
        let r := fun (v : Nat) => (if n then (F.canonicalNaN, 1) else (v, 0) : FRes)
        F.sqrt mode a = r (F.infinity false) ∧ F.rcp a = (F.sign n 0, 0) ∧ F.rsq a = r (F.sign false 0)
        ∧ F.exp2 a = (if n then F.sign false 0 else F.infinity false, 0) ∧ F.log2 a = r (F.infinity false)
      | .fin n m e =>
        let x : ℝ := (exactOf (.fin n m e) : ℝ)
        (if m = 0 then F.sqrt mode a = (F.sign n 0, 0) ∧ F.rcp a = (F.infinity n, 2) ∧ F.rsq a = (F.infinity n, 2)
            ∧ F.log2 a = (F.infinity true, 2)
          else RoundsTo F 0 false (1 / x) (F.rcp a)
            ∧ (if n then F.sqrt mode a = (F.canonicalNaN, 1) ∧ F.rsq a = (F.canonicalNaN, 1) ∧ F.log2 a = (F.canonicalNaN, 1)
              else RoundsTo F mode false (Real.sqrt x) (F.sqrt mode a) ∧ RoundsTo F 0 false (1 / Real.sqrt x) (F.rsq a)
                ∧ (x = 1 → F.log2 a = (F.sign false 0, 0))
                ∧ (∀ i : Int, i ≠ 0 → x = (2 : ℝ) ^ i → RoundsTo F 0 false (i : ℝ) (F.log2 a))
                ∧ (x ≠ 1 → ∃ q : ℝ, |q - Real.logb 2 x| ≤ 1 / 2 ^ 180 ∧ RoundsTo F 0 false q (F.log2 a))))
        ∧ (∀ i : Int, x = (i : ℝ) → RoundsTo F 0 false ((2 : ℝ) ^ i) (F.exp2 a))
        ∧ ∃ q : ℝ, |q - (2 : ℝ) ^ x| ≤ (2 : ℝ) ^ x / 2 ^ 200 ∧ RoundsTo F 0 false q (F.exp2 a)))
  ∧ (∀ F ∈ [fp32, fp16, bf16, e4m3, e5m2], ∀ (mode : BitVec 2) (v : FVal), NarrowsTo F mode v (F.narrow mode v))
  ∧ (∀ p ∈ [(e4m3, fp32), (e5m2, fp32), (bf16, fp32), (fp16, fp32), (fp32, fp40)], ∀ w : Nat,
    let r := p.2.widen (p.1.decode w)
    match p.1.decode w with
    | .nan s => r = (p.2.canonicalNaN, if s then 1 else 0)
    | .inf n => r = (p.2.infinity n, 0)
    | .fin n m e => r.1 < 2 ^ p.2.bits ∧ r.2 = 0 ∧ ∃ k g, p.2.decode r.1 = .fin n k g ∧ exactOf (.fin n k g) = exactOf (.fin n m e))
  ∧ (∀ n ∈ [32, 64], ∀ (mode : BitVec 2) (v : FVal),
    match v with
    | .nan _ => toInteger n mode v = (0, 1) ∧ toUnsigned n mode v = (0, 1)
    | .inf neg => toInteger n mode v = (if neg then 2 ^ (n - 1) else 2 ^ (n - 1) - 1, 20)
      ∧ toUnsigned n mode v = (if neg then 0 else 2 ^ n - 1, 20)
    | .fin _ _ _ => ∃ z : Int, ChosenInt mode (exactOf v) z
      ∧ (let fl : BitVec 5 := if (z : ℚ) = exactOf v then 0 else 16
        toInteger n mode v = (if z < -2 ^ (n - 1) then (2 ^ (n - 1), 20) else if 2 ^ (n - 1) ≤ z then (2 ^ (n - 1) - 1, 20)
          else ((z % 2 ^ n).toNat, fl))
        ∧ toUnsigned n mode v = (if z < 0 then (0, 20) else if 2 ^ n ≤ z then (2 ^ n - 1, 20) else (z.toNat, fl))))
  ∧ (∀ (n k : Bool) (m p : Nat) (e g : Int),
    let A := FVal.fin n m e
    let B := FVal.fin k p g
    (A.compare B = some .lt ↔ exactOf A < exactOf B) ∧ (A.compare B = some .eq ↔ exactOf A = exactOf B)
    ∧ (A.compare B = some .gt ↔ exactOf B < exactOf A))
  ∧ (∀ n ∈ [8, 16, 32, 64], ∀ v : Nat, ∃ m, intVal n v = .fin (decide ((BitVec.ofNat n v).toInt < 0)) m 0
    ∧ exactOf (intVal n v) = ((BitVec.ofNat n v).toInt : ℚ))
  ∧ (∀ F ∈ [fp32, fp16, bf16], ∀ (a b : Nat) (most : Bool),
    let A := F.decode a
    let B := F.decode b
    let r := F.minMax most a b
    let below := fun X Y => FVal.compare X Y = some .lt ∨ ∃ e g, X = .fin true 0 e ∧ Y = .fin false 0 g
    (match A, B with
      | .nan s, .nan t => r = (F.canonicalNaN, if s || t then 1 else 0)
      | .nan s, _ => r = (b, if s then 1 else 0)
      | _, .nan t => r = (a, if t then 1 else 0)
      | X, Y => r.2 = 0 ∧ (r.1 = a ∨ r.1 = b) ∧ (below X Y → r.1 = if most then b else a) ∧ (below Y X → r.1 = if most then a else b))
    ∧ (a < 2 ^ F.bits →
      let abs := F.signOp (fun _ => false) a
      let neg := F.signOp (fun n => !n) a
      abs.1 < 2 ^ F.bits ∧ neg.1 < 2 ^ F.bits
      ∧ (match A with
        | .nan s => abs = (F.canonicalNaN, if s then 1 else 0) ∧ neg = (F.canonicalNaN, if s then 1 else 0)
        | .inf _ => abs.2 = 0 ∧ neg.2 = 0 ∧ F.decode abs.1 = .inf false ∧ F.decode neg.1 = opposite A
        | .fin _ m e => abs.2 = 0 ∧ neg.2 = 0 ∧ F.decode abs.1 = .fin false m e ∧ F.decode neg.1 = opposite A))
    ∧ F.classOf a = match A with
      | .inf true => 1
      | .fin true m e => if m = 0 then 8 else if |exactOf (.fin true m e)| < (2 : ℚ) ^ (1 - (F.bias : Int)) then 4 else 2
      | .fin false m e => if m = 0 then 16 else if |exactOf (.fin false m e)| < (2 : ℚ) ^ (1 - (F.bias : Int)) then 32 else 64
      | .inf false => 128
      | .nan true => 256
      | .nan false => 512)

/-- R220, R221 and R56: the enabled lanes among 0 to 63 of a vector access are checked in ascending order at their pointers: P0 + i × z
for VLD and VST, with z the stored size under P0's alias window, P0 + i × SignExtend(X[a + 1][31:0]) for VLDS and VSTS and
P0 + SignExtend(lane i of V[d + 1]) for VGATH and VSCAT, where P0 = X[a] + SignExtend(off8) × 256. Each is checked for the size
under its own window. When all pass, the access issues as a head; a store holds the stored form of each lane and their flags
(R202). The first failing lane decides the trap, and one that waits makes the access wait (log 21).

R202, R221 and R140: a vector store whose forms raise a flag enabled in FTRAP traps with nothing written: the cause of the lowest
enabled flag raised, EVAL [4:0] every flag raised and EVAL [31:16] the lowest lane that raised an enabled one. -/
def Obligations.VectorAccessesFormTheirLanes : Prop :=
  ∀ (s : State) (th : Thread) (d : VReg) (a : Reg) (la : BitVec 4) (mk : MReg) (off : BitVec 8), s.current = some th →
    let P0 := th.getX a + off.signExtend 64 <<< 8
    let size := fun (P : Word) =>
      (if P.extractLsb' 60 4 = 1 ∨ P.extractLsb' 60 4 = 2 then [4, 1, 1, 2, 2, 1, 2].getD (P.extractLsb' 57 3).toNat 4 else 4 : Nat)
    let on := (List.range 64).filter (fun i => (th.getM mk).getLsbD i)
    let dense := fun i => P0 + BitVec.ofNat 64 (i * size P0)
    let strided := fun i => P0 + BitVec.ofNat 64 i * ((th.getX (a + 1)).extractLsb' 0 32).signExtend 64
    let gathered := fun i => P0 + (element (th.getV (d + 1)) 32 i).signExtend 64
    let check := fun (kind : AccessKind) (role : Role) (ptr : Nat → Word) (i : Nat) =>
      checkAccess s (cxOf s th) th.place.handle kind role false (ptr i) (size (ptr i)) (size (ptr i))
    let lane := fun (i : Nat) (acc : Acc) (data : Word) =>
      ({ idx := i, ptr := acc.ptr, loc := acc.loc, lpage := acc.lpage, win := acc.win, data := data } : Lane)
    let touched := fun (kind : AccessKind) (acc : Nat → Acc) => on.foldl (fun st i => touchAcc st (some th.core) kind (acc i)) s
    let fails := fun (i : Instr) (kind : AccessKind) (role : Role) (ptr : Nat → Word) =>
      ∀ k ∈ on, (∀ j ∈ on, j < k → ∃ acc, check kind role ptr j = .ok acc) →
        (∀ tr, check kind role ptr k = .error (some tr) → exec i s = .next ((s.holdLeaf tr).takeTrap s.cur tr))
        ∧ (check kind role ptr k = .error none → exec i s = .next s)
    let loads := fun (i : Instr) (ptr : Nat → Word) =>
      (∀ acc : Nat → Acc, (∀ j ∈ on, check .load .engineLoad ptr j = .ok (acc j)) →
        exec i s = .next ((touched .load acc).putThread s.cur (th.issueHead s.cycle
          (.vload d (on.map (fun j => lane j (acc j) 0))) (.v d) (if on.any (fun j => (acc j).lpage) then 0 else la.toNat))))
      ∧ fails i .load .engineLoad ptr
    let stores := fun (i : Instr) (ptr : Nat → Word) =>
      (∀ acc : Nat → Acc, (∀ j ∈ on, check .store .engineStore ptr j = .ok (acc j)) →
        let form := fun j => storeForm th.frm (acc j).win (element (th.getV d) 32 j).toNat
        ∃ fl : BitVec 5, (∀ c, fl.getLsbD c = on.any (fun j => (form j).2.getLsbD c))
          ∧ (fl &&& th.ftrap = 0 → exec i s = .next ((touched .store acc).putThread s.cur (th.issueHead s.cycle
              (.vstore (on.map (fun j => lane j (acc j) (BitVec.ofNat 64 (form j).1))) fl) .none la.toNat)))
          ∧ (fl &&& th.ftrap ≠ 0 → ∃ k c cause, k ∈ on ∧ (form k).2 &&& th.ftrap ≠ 0 ∧ (∀ j ∈ on, j < k → (form j).2 &&& th.ftrap = 0)
            ∧ c < 5 ∧ (fl &&& th.ftrap).getLsbD c = true ∧ (∀ j, j < c → (fl &&& th.ftrap).getLsbD j = false)
            ∧ Cause.code cause = 10 + c
            ∧ exec i s = .next (s.takeTrap s.cur { cause := cause, val := BitVec.ofNat 64 (fl.toNat + k * 65536) })))
      ∧ fails i .store .engineStore ptr
    loads (.vld d a la mk off) dense ∧ loads (.vlds d a la mk off) strided ∧ loads (.vgath d a la mk off) gathered
    ∧ stores (.vst d a la mk off) dense ∧ stores (.vsts d a la mk off) strided ∧ stores (.vscat d a la mk off) gathered

/-- R222 and R202: when an outstanding vector load completes with no line held, no mark and no tag in its way, each of its lanes of
the register gets the register form of the bytes at its place, the others stay, and FFLAGS gains the lanes' flags at the
load's own PC. Lanes of another package are left out.

R222, R224 and R101: when an outstanding vector store completes, the bytes of each lane, of DRAM or of a bank, that no later lane
writes become its stored form; every byte of DRAM and of the banks outside the lanes reads as before; its thread keeps its
registers but for FFLAGS, FLAGORG and what retirement changes. The words that aligned lanes write become VALUE, but an EVALUATING
one that its evaluator writes through an L page stays so (R317, R319); every other tag stays. CONTROL and other packages' lanes
are left out.

R317, R226: the first lane whose word's tag cannot be read traps UNCORRECTABLE_DATA, with ESKIP the shadows that have retired; one that
meets a tag other than VALUE through the REMOTE space THUNK_INVALID (R329); and one that meets an EVALUATING word that is not its
thread's own CELL_BUSY_WRITE, with the cell's address; no byte changes. That the lanes are read and their tags met at completion, the mark
before the tag, is log 39's reading.

R202: the register form of each window's elements, and the stored form.

R223: VSTQ is checked at P0 for its 64 bytes on a K page and issues as a head with V[d] and the mask. When it completes, byte i for each
enabled lane i becomes the E4M3 form of the lane divided by the page header's scale, 0x7F with NV where the scale is not finite
and positive; bit 0 of the header's second word is set when a lane saturated (OF); FFLAGS gains the lanes' flags, and an enabled one
traps with nothing written; no other byte changes. -/
def Obligations.VectorAccessesCompleteLaneByLane : Prop :=
  (∀ (s : State) (t : Nat) (th : Thread) (h : Head) (d : VReg) (lanes : List Lane),
    s.thread t = some th → th.head = some h → h.op = .vload d lanes →
    lanes.Pairwise (fun l k => l.idx ≠ k.idx) →
    let form := fun (l : Lane) => loadForm l.win (readLoc s l.loc (laneSize l.ptr))
    (∀ l ∈ lanes, l.idx < 64 ∧ lineHeld s l.loc (laneSize l.ptr) = false ∧ l.blocked s = false
      ∧ (∀ dev x, l.loc ≠ .remote dev x) ∧ (form l).2 &&& th.ftrap = 0) →
    ∃ v fl, exec (.vectorAccessComplete t) s
        = .next ((acceptLanes s th.core lanes).putThread t ((th.setV d v).completeWith s.cycle h.pc fl))
      ∧ (∀ l ∈ lanes, element v 32 l.idx = BitVec.ofNat 32 (form l).1)
      ∧ (∀ j, j < 64 → (∀ l ∈ lanes, l.idx ≠ j) → element v 32 j = element (th.getV d) 32 j)
      ∧ (∀ c, fl.getLsbD c = lanes.any (fun l => (form l).2.getLsbD c)))
  ∧ (∀ (s : State) (t : Nat) (th : Thread) (h : Head) (fl : BitVec 5) (lanes : List Lane),
    Tidy s → s.thread t = some th → th.head = some h → h.op = .vstore lanes fl →
    (∀ l ∈ lanes, lineHeld s l.loc (laneSize l.ptr) = false ∧ ∃ x, l.loc = .dram x ∨ l.loc = .bank x) →
    let remote := fun (l : Lane) => l.ptr.extractLsb' 60 4 = 4
    let ok := fun (l : Lane) => ∀ x, l.loc = .dram x → l.lpage = true →
      tagBad s x = false ∧ (remote l → s.tag x = 0) ∧ (s.tag x = 2 → th.evalOf = some (x / 8 * 8))
    ((∀ l ∈ lanes, ok l) → ∃ u, exec (.vectorAccessComplete t) s = .next u
      ∧ u.threads = s.threads.put t (th.completeWith s.cycle h.pc fl) ∧ u.cores = s.cores
      ∧ ((∀ l ∈ lanes, ∀ p, l.loc = .dram p → p % laneSize l.ptr = 0) → ∀ x,
        ((∀ l ∈ lanes, ∀ p, l.loc = .dram p → p / 8 ≠ x / 8) → u.tag x = s.tag x)
        ∧ ((∃ l ∈ lanes, ∃ p, l.loc = .dram p ∧ p / 8 = x / 8) → (s.tag x ≠ 2 → u.tag x = 0)
          ∧ (s.tag x = 2 → (∀ l ∈ lanes, ∀ p, l.loc = .dram p → p / 8 = x / 8 → l.lpage = true) → u.tag x = 2)))
      ∧ (∀ x, (∀ l ∈ lanes, ∀ p, l.loc = .dram p → x < p ∨ p + laneSize l.ptr ≤ x) → u.mem.read x = s.mem.read x)
      ∧ (∀ x, (∀ l ∈ lanes, ∀ p, l.loc = .bank p → x < p ∨ p + laneSize l.ptr ≤ x) → u.sram.read x = s.sram.read x)
      ∧ (∀ before l after p i, lanes = before ++ l :: after → i < laneSize l.ptr →
        (l.loc = .dram p → (∀ k ∈ after, ∀ q, k.loc = .dram q → p + i < q ∨ q + laneSize k.ptr ≤ p + i) →
          u.mem.read (p + i) = l.data.extractLsb' (8 * i) 8)
        ∧ (l.loc = .bank p → (∀ k ∈ after, ∀ q, k.loc = .bank q → p + i < q ∨ q + laneSize k.ptr ≤ p + i) →
          u.sram.read (p + i) = l.data.extractLsb' (8 * i) 8)))
    ∧ (∀ before l after p, lanes = before ++ l :: after → (∀ k ∈ before, ok k) → l.loc = .dram p → l.lpage = true →
      (tagBad s p = true →
        exec (.vectorAccessComplete t) s = .next (s.trapHead t { cause := .uncorrectableData, val := l.ptr } h.retired))
      ∧ (tagBad s p = false → remote l → s.tag p ≠ 0 →
        exec (.vectorAccessComplete t) s = .next (s.trapHead t { cause := .thunkInvalid, val := l.ptr } 0))
      ∧ (tagBad s p = false → ¬ remote l → s.tag p = 2 → th.evalOf ≠ some (p / 8 * 8) →
        exec (.vectorAccessComplete t) s = .next (s.trapHead t { cause := .cellBusyWrite, val := l.ptr &&& ~~~ 7 } 0))))
  ∧ (∀ (frm : BitVec 2) (v : Nat),
    loadForm 0 v = (v, 0) ∧ loadForm 1 v = fp32.widen (e4m3.decode v) ∧ loadForm 2 v = fp32.widen (e5m2.decode v)
    ∧ loadForm 3 v = fp32.widen (bf16.decode v) ∧ loadForm 4 v = fp32.widen (fp16.decode v)
    ∧ loadForm 5 v = (((BitVec.ofNat 8 v).signExtend 32).toNat, 0) ∧ loadForm 6 v = (((BitVec.ofNat 16 v).signExtend 32).toNat, 0)
    ∧ storeForm frm 0 v = (v, 0) ∧ storeForm frm 1 v = e4m3.narrow frm (fp32.decode v)
    ∧ storeForm frm 2 v = e5m2.narrow frm (fp32.decode v) ∧ storeForm frm 3 v = bf16.narrow frm (fp32.decode v)
    ∧ storeForm frm 4 v = fp16.narrow frm (fp32.decode v)
    ∧ (let n := (BitVec.ofNat 32 v).toInt
      storeForm frm 5 v = (if n < -128 then (128, 20) else if 127 < n then (127, 20) else (v % 256, 0))
      ∧ storeForm frm 6 v = (if n < -32768 then (32768, 20) else if 32767 < n then (32767, 20) else (v % 65536, 0))))
  ∧ (∀ (s : State) (th : Thread) (d : VReg) (a : Reg) (la : BitVec 4) (mk : MReg) (off : BitVec 8),
    (∀ pa h, s.current = some th →
      let P0 := th.getX a + off.signExtend 64 <<< 8
      checkVstq s th P0 = .ok (pa, h) →
      exec (.vstq d a la mk off) s = .next ((touch s (some th.core) .store h).putThread s.cur
        (th.issueHead s.cycle (.vstq P0 pa (pa / 65536 * 65536) (th.getM mk) (th.getV d)) .none la.toNat)))
    ∧ (∀ t h ptr pa hdr mask data, Tidy s → s.thread t = some th → th.head = some h → h.op = .vstq ptr pa hdr mask data →
      lineHeld s (.dram pa) 64 = false → lineHeld s (.dram hdr) 8 = false → s.isBad hdr 4 = false → hdr + 8 ≤ pa →
      ∃ (r : Nat → FRes) (fl : BitVec 5),
        (∀ i, i < 64 → Quantised (fp32.decode (s.mem.readLE hdr 4)) (fp32.decode (element data 32 i).toNat) (r i))
        ∧ (∀ c, fl.getLsbD c = (List.range 64).any (fun i => mask.getLsbD i && (r i).2.getLsbD c))
        ∧ (fl &&& th.ftrap = 0 → ∃ u, exec (.vectorAccessComplete t) s = .next u
          ∧ u.threads = s.threads.put t (th.completeWith s.cycle h.pc fl) ∧ u.sram = s.sram
          ∧ (∀ i, i < 64 → u.mem.read (pa + i) = if mask.getLsbD i then BitVec.ofNat 8 (r i).1 else s.mem.read (pa + i))
          ∧ u.mem.readLE (hdr + 4) 4 = (if fl.getLsbD 2 then s.mem.readLE (hdr + 4) 4 ||| 1 else s.mem.readLE (hdr + 4) 4)
          ∧ (∀ x, (x < pa ∨ pa + 64 ≤ x) → (x < hdr + 4 ∨ hdr + 8 ≤ x) → u.mem.read x = s.mem.read x))
        ∧ (fl &&& th.ftrap ≠ 0 → ∃ k c cause, k < 64 ∧ mask.getLsbD k = true ∧ (r k).2 &&& th.ftrap ≠ 0
          ∧ (∀ j, j < k → mask.getLsbD j = true → (r j).2 &&& th.ftrap = 0)
          ∧ c < 5 ∧ (fl &&& th.ftrap).getLsbD c = true ∧ (∀ j, j < c → (fl &&& th.ftrap).getLsbD j = false)
          ∧ Cause.code cause = 10 + c
          ∧ exec (.vectorAccessComplete t) s
            = .next (s.trapHead t { cause := cause, val := BitVec.ofNat 64 (fl.toNat + k * 65536) } 0))))

/-! ### The matrix engine -/

/-- R229: MACQ takes a tile that is free or the thread's own, with its format set and its elements and clamp bits clear, and waits for one
that another thread holds; MREL frees the tile and keeps its contents, MZERO clears it. A tile that becomes free goes to
the MACQ that has waited longest, which then retires holding it. MREL and MZERO of a tile that the thread does not hold trap
MATRIX_TILE_NOT_HELD with its number. Stated where no MACQ waits for a tile that is free already.

R241 and R242: MCFG writes X[a] to MXCFG, and bits [63:3] that are not zero trap RESERVED_FIELD at the word; MFLG raise and fold add
the flags of the counters that are not zero (invalid NV, overflow OF and NX, underflow UF, inexact NX) to FFLAGS, and clear
and fold set MXCNT to 0. An enabled flag traps: the lowest one's cause, with the flags in EVAL (R140). -/
def Obligations.TilesAndMatrixCountersAreManaged : Prop :=
  (∀ (s : State) (th : Thread) (acc : BitVec 3), s.current = some th → th.wait = none →
    let c := s.core th.core
    let tile := c.tile acc
    let waits := fun (k : Nat) (x : Thread) (a : BitVec 3) (int : Bool) (since : Nat) =>
      (k, x) ∈ s.threads ∧ x.isBound = true ∧ x.core = th.core ∧ x.wait = some (.macq a int since)
    let takes := fun (i : Instr) (int : Bool) =>
      (tile.holder = none ∨ tile.holder = some s.cur →
        exec i s = ends (s.putCore th.core (c.setTile acc { holder := some s.cur, int := int, elems := 0, clamp := 0 })) th)
      ∧ (∀ o, tile.holder = some o → o ≠ s.cur →
        ∃ u, exec i s = .next (s.putThread s.cur u) ∧ u.wait = some (.macq acc int s.cycle) ∧ u.x = th.x ∧ u.pc = th.pc)
    let leaves := fun (t : Tile) => (s.putCore th.core (c.setTile acc t)).putThread s.cur (th.retire s.cycle).countShadow
    let held := ∀ k x a int since, waits k x a int since → (c.tile a).holder ≠ none
    takes (.macqFp acc) false ∧ takes (.macqInt acc) true
    ∧ (∀ i ∈ [Instr.mrel acc, .mzero acc], tile.holder ≠ some s.cur → th.head = none →
      exec i s = .next (s.takeTrap s.cur { cause := .matrixTileNotHeld, val := acc.zeroExtend 64 }))
    ∧ (tile.holder = some s.cur → held →
      exec (.mzero acc) s = .next (leaves { tile with elems := 0, clamp := 0 })
      ∧ ((∀ k x int since, ¬ waits k x acc int since) → exec (.mrel acc) s = .next (leaves { tile with holder := none }))
      ∧ (rising s.threads → ∀ k x int since, waits k x acc int since →
        (∀ k' x' int' since', waits k' x' acc int' since' → k' = k ∨ since < since') →
        exec (.mrel acc) s
          = .next ((leaves { holder := some k, int := int, elems := 0, clamp := 0 }).putThread k (x.retire s.cycle)))))
  ∧ (∀ (s : State) (th : Thread) (a : Reg), s.current = some th →
    let X := th.getX a
    let c := th.mxcnt
    let fl : BitVec 5 := (if c.extractLsb' 0 16 = 0 then 0 else 1) ||| (if c.extractLsb' 16 16 = 0 then 0 else 20)
      ||| (if c.extractLsb' 32 16 = 0 then 0 else 8) ||| (if c.extractLsb' 48 16 = 0 then 0 else 16)
    let flagged := { th with fflags := th.fflags ||| fl, flagorg := if th.fflags = 0 ∧ fl ≠ 0 then th.pc else th.flagorg }
    (X.extractLsb' 3 61 = 0 → exec (.mcfg a) s = ends s { th with mxcfg := X })
    ∧ (X.extractLsb' 3 61 ≠ 0 → exec (.mcfg a) s = .next (s.takeTrap s.cur { cause := .reservedField, val := th.pc }))
    ∧ exec .mflgClear s = ends s { th with mxcnt := 0 }
    ∧ (fl &&& th.ftrap = 0 → exec .mflgFold s = ends s { flagged with mxcnt := 0 } ∧ exec .mflgRaise s = ends s flagged)
    ∧ (fl &&& th.ftrap ≠ 0 → ∃ c cause, c < 5 ∧ (fl &&& th.ftrap).getLsbD c = true
      ∧ (∀ j, j < c → (fl &&& th.ftrap).getLsbD j = false) ∧ Cause.code cause = 10 + c
      ∧ ∀ i ∈ [Instr.mflgFold, .mflgRaise], exec i s = .next (s.takeTrap s.cur { cause := cause, val := fl.zeroExtend 64 })))

/-- R235: an MMA of a tile that the thread does not hold traps MATRIX_TILE_NOT_HELD with the tile's number, one whose kind is not the
tile's format MATRIX_FORMAT_INVALID with its fmt field, in this order and before any operand is read. Then the operands of 2,048
bytes, or the offset table of a Mint panel, are checked, A before B: the first that fails traps with its cause, one that waits makes the
MMA wait (log 21). A REMOTE pointer traps SPACE_INVALID, one that is not a multiple of 64 LOAD_MISALIGNED, and an operand within one page
is checked as one access of its bytes.

R232 and R234: MMA.i8 on a held integer tile issues with, for every i and j below 32, the exact sum E of the old element and the
64 signed products of row i of A and row j of B; the products alone in set mode, subtracted in mode 2. Under WRAP the element
becomes E modulo 2^40, its clamp bit stays and nothing is counted. Under SAT an element whose clamp bit is set keeps its value, and
any other becomes E clamped to the range of INT40; a clamp sets its clamp bit and counts OF. The operands are read when it issues
(log 39). -/
def Obligations.IntegerProductsAreSummedModulo : Prop :=
  (∀ (s : State) (th : Thread) (acc : BitVec 3) (mode : BitVec 2) (a b : Reg) (la : BitVec 4), s.current = some th →
    let t := (s.core th.core).tile acc
    let all : List (Instr × Bool × Nat) := [(.mmaE4m3 acc mode a b la, false, 0), (.mmaE5m2 acc mode a b la, false, 1),
      (.mmaE4m3e5m2 acc mode a b la, false, 2), (.mmaE5m2e4m3 acc mode a b la, false, 3), (.mmaBf16 acc mode a b la, false, 4),
      (.mmaF16 acc mode a b la, false, 5), (.mmaI8 acc mode a b la, true, 6), (.mmaMint acc mode a b la, false, 7)]
    ∀ p ∈ all,
      (t.holder ≠ some s.cur → exec p.1 s = .next (s.takeTrap s.cur { cause := .matrixTileNotHeld, val := acc.zeroExtend 64 }))
      ∧ (t.holder = some s.cur → t.int ≠ p.2.1 →
        exec p.1 s = .next (s.takeTrap s.cur { cause := .matrixFormatInvalid, val := BitVec.ofNat 64 p.2.2 }))
      ∧ (t.holder = some s.cur → t.int = p.2.1 →
        let region := fun (P : Word) (n align : Nat) => checkRegion s th .load .engineLoad P n align
        let stops := fun (c : Check (List (Acc × Nat))) =>
          (∀ tr, c = .error (some tr) → exec p.1 s = .next ((s.holdLeaf tr).takeTrap s.cur tr)) ∧ (c = .error none → exec p.1 s = .next s)
        let j0 := ((th.getX (b + 1)).extractLsb' 0 16).toNat
        let nb := ((th.getX (b + 1)).extractLsb' 16 16).toNat
        (p.2.2 ≠ 7 ∨ 2 ≤ nb ∧ j0 + 2 ≤ nb → stops (region (th.getX a) 2048 64))
        ∧ ∀ ra, region (th.getX a) 2048 64 = .ok ra → (p.2.2 ≠ 7 → stops (region (th.getX b) 2048 64))
          ∧ (p.2.2 = 7 → 2 ≤ nb → j0 + 2 ≤ nb → stops (region (th.getX b) (128 * nb) 4))))
  ∧ (∀ (s : State) (th : Thread) (P : Word), s.current = some th →
    let c := checkRegion s th .load .engineLoad P 2048 64
    let traps := fun (cause : Cause) => c = .error (some { cause := cause, val := P })
    (P.extractLsb' 60 4 = 4 → traps .spaceInvalid)
    ∧ (P.extractLsb' 52 12 = 0 → P.toNat % 64 ≠ 0 → traps .loadMisaligned)
    ∧ (P.extractLsb' 52 12 = 0 → P.toNat % 64 = 0 → P.toNat % 65536 + 2048 ≤ 65536 →
      c = match checkAccess s (cxOf s th) th.place.handle .load .engineLoad false P 2048 1 with
        | .ok a => .ok [(a, 2048)]
        | .error e => .error e))
  ∧ (∀ (s : State) (th : Thread) (acc : BitVec 3) (mode : BitVec 2) (a b : Reg) (la : BitVec 4) (ra rb : List (Acc × Nat)),
    s.current = some th →
    let t := (s.core th.core).tile acc
    t.holder = some s.cur → t.int = true →
    checkRegion s th .load .engineLoad (th.getX a) 2048 64 = .ok ra →
    checkRegion s th .load .engineLoad (th.getX b) 2048 64 = .ok rb →
    regionHeld s (ra ++ rb) = false → regionBad s (ra ++ rb) = none → regionCells s (ra ++ rb) = [] →
    (regionBytes s ra).length = 2048 → (regionBytes s rb).length = 2048 →
    let signed := fun (r : List (Acc × Nat)) n => (BitVec.ofNat 8 ((regionBytes s r).getD n 0)).toInt
    let dot := fun i j => ((List.range 64).map (fun k => signed ra (64 * i + k) * signed rb (64 * j + k))).sum
    let old := fun n => t.elems.extractLsb' (40 * n) 40
    let E := fun n => if mode = 1 then dot (n / 32) (n % 32) else if mode = 2 then (old n).toInt - dot (n / 32) (n % 32)
      else (old n).toInt + dot (n / 32) (n % 32)
    let sat := th.mxcfg.getLsbD 2
    let clamps := fun n => sat && !t.clamp.getLsbD n && (decide (E n < -2 ^ 39) || decide (2 ^ 39 ≤ E n))
    ∃ elems clamp counts, exec (.mmaI8 acc mode a b la) s
        = .next ((touchRegion (touchRegion s th.core .load ra) th.core .load rb).putThread s.cur
          (th.issueHead s.cycle (.mma acc elems clamp counts) (.tile acc) (if regionL ra || regionL rb then 0 else la.toNat)
            (regionStarts (ra ++ rb))))
      ∧ CountsAre counts 1024 (fun n => if clamps n then 4 else 0)
      ∧ ∀ n, n < 1024 →
        clamp.getLsbD n = (t.clamp.getLsbD n || clamps n)
        ∧ elems.extractLsb' (40 * n) 40 = (if sat && t.clamp.getLsbD n then old n
          else if clamps n then BitVec.ofInt 40 (if E n < 0 then -2 ^ 39 else 2 ^ 39 - 1) else BitVec.ofInt 40 (E n)))

/-- R232, R234 and R235: an MMA of a float kind on a held FP40 tile whose two regions of 2,048 bytes pass their checks and hold no tag
issues as a head with, for every i and j below 32, the exactly summed and once rounded element of old element, row i of A
and row j of B, without the old element in set mode (1), with the products subtracted in mode 2, and with what its elements
count. The rows are 64 elements of one byte, or 32 of two. The operands are read when it issues (log 39).

R235: a marked byte or a word that is not VALUE in an operand is met by the head in place of the product: the first of them, A before
B, a mark before a tag (log 39). -/
def Obligations.FloatProductsAreSummedExactly : Prop :=
  ∀ (s : State) (th : Thread) (acc : BitVec 3) (mode : BitVec 2) (a b : Reg) (la : BitVec 4) (ra rb : List (Acc × Nat)),
    s.current = some th →
    let t := (s.core th.core).tile acc
    t.holder = some s.cur → t.int = false →
    checkRegion s th .load .engineLoad (th.getX a) 2048 64 = .ok ra →
    checkRegion s th .load .engineLoad (th.getX b) 2048 64 = .ok rb →
    regionHeld s (ra ++ rb) = false →
    (regionBytes s ra).length = 2048 → (regionBytes s rb).length = 2048 →
    let A := fun n => (regionBytes s ra).getD n 0
    let B := fun n => (regionBytes s rb).getD n 0
    let bytes := fun (F : Fmt) (M : Nat → Nat) i k => F.decode (M (64 * i + k))
    let halves := fun (F : Fmt) (M : Nat → Nat) i k => F.decode (M (64 * i + 2 * k) + 256 * M (64 * i + 2 * k + 1))
    let goes := fun (i : Instr) (op : HeadOp) =>
      exec i s = .next ((touchRegion (touchRegion s th.core .load ra) th.core .load rb).putThread s.cur
        (th.issueHead s.cycle op (.tile acc) (if regionL ra || regionL rb then 0 else la.toNat) (regionStarts (ra ++ rb))))
    let issues := fun (i : Instr) (K : Nat) (row col : Nat → Nat → FVal) =>
      (regionBad s (ra ++ rb) = none → regionCells s (ra ++ rb) = [] →
        ∃ (r : Nat → FRes) (elems : BitVec 40960) (counts : Word), goes i (.mma acc elems t.clamp counts)
          ∧ CountsAre counts 1024 (fun n => (r n).2)
          ∧ ∀ n, n < 1024 → elems.extractLsb' (40 * n) 40 = BitVec.ofNat 40 (r n).1
            ∧ TileElement (th.mxcfg.extractLsb' 0 2) (mode == 2)
              (if mode = 1 then none else some (fp40.decode (t.elems.extractLsb' (40 * n) 40).toNat)) K (row (n / 32)) (col (n % 32)) (r n))
      ∧ (∀ p, regionBad s (ra ++ rb) = some p → goes i (.marked acc p))
      ∧ (∀ q l, regionBad s (ra ++ rb) = none → regionCells s (ra ++ rb) = q :: l → goes i (.cells acc q.1 q.2))
    issues (.mmaE4m3 acc mode a b la) 64 (bytes e4m3 A) (bytes e4m3 B)
    ∧ issues (.mmaE5m2 acc mode a b la) 64 (bytes e5m2 A) (bytes e5m2 B)
    ∧ issues (.mmaE4m3e5m2 acc mode a b la) 64 (bytes e4m3 A) (bytes e5m2 B)
    ∧ issues (.mmaE5m2e4m3 acc mode a b la) 64 (bytes e5m2 A) (bytes e4m3 B)
    ∧ issues (.mmaBf16 acc mode a b la) 32 (halves bf16 A) (halves bf16 B)
    ∧ issues (.mmaF16 acc mode a b la) 32 (halves fp16 A) (halves fp16 B)

/-- R233: MMA.mint multiplies 32 rows of E4M3 by a Mint panel: X[b] is the panel, X[b + 1] [15:0] the first K-block j0 and [31:16]
the K-blocks nb of each column, with nb at least 2 and at least j0 + 2 (MATRIX_FORMAT_INVALID 7 otherwise). Column j of B is the 64
elements of the blocks at table indices j × nb + j0 and the next one, decoded by R197 to R199, and the element is that of R234.

R200 and R201: a block's limit is the next offset of the table, for the last entry its own offset + 62; never more than 62 bytes are
read (log 40). An offset inside the table, and a block that does not decode, trap MINT_DECODE_ERROR with the lowest such block's
address. The checked regions hold no mark and no tag here; which bytes of a block and of the table they cover is the model's choice
(log 40). -/
def Obligations.MintPanelsAreDecodedAndMultiplied : Prop :=
  ∀ (s : State) (th : Thread) (acc : BitVec 3) (mode : BitVec 2) (a b : Reg) (la : BitVec 4), s.current = some th →
    let t := (s.core th.core).tile acc
    let j0 := ((th.getX (b + 1)).extractLsb' 0 16).toNat
    let nb := ((th.getX (b + 1)).extractLsb' 16 16).toNat
    t.holder = some s.cur → t.int = false →
    (nb < 2 ∨ nb < j0 + 2 →
      exec (.mmaMint acc mode a b la) s = .next (s.takeTrap s.cur { cause := .matrixFormatInvalid, val := 7 }))
    ∧ (∀ (ra rt : List (Acc × Nat)) (part : Nat → List (Acc × Nat)), 2 ≤ nb → j0 + 2 ≤ nb →
      checkRegion s th .load .engineLoad (th.getX a) 2048 64 = .ok ra →
      checkRegion s th .load .engineLoad (th.getX b) (128 * nb) 4 = .ok rt →
      let offset := fun i => (List.range 4).foldl (fun v k => v + (regionBytes s rt).getD (4 * i + k) 0 * 256 ^ k) 0
      let index := fun i => i / 2 * nb + j0 + i % 2
      let start := fun i => offset (index i)
      let limit := fun i => if index i + 1 < 32 * nb then offset (index i + 1) else start i + 62
      let size := fun i => min (limit i) (start i + 62) - start i
      let addr := fun i => th.getX b + BitVec.ofNat 64 (start i)
      let inside := fun i => start i < 128 * nb
      (∀ i, i < 64 → (inside i ∨ size i = 0 → part i = [])
        ∧ (¬ inside i → size i ≠ 0 → blockRegion s th (addr i) (size i) = .ok (part i))) →
      let rb := ((List.range 64).map part).flatten
      (regionBytes s ra).length = 2048 →
      (∀ r ∈ [ra, rt, rb], regionHeld s r = false ∧ regionBad s r = none ∧ regionCells s r = []) →
      let byte := fun i k => (regionBytes s (part i)).getD k 0
      let decodes := fun i (e : Nat → FVal) => ¬ inside i ∧ BlockDecodes (byte i) (size i) e
      ((∀ i, i < 64 → ∃ e, decodes i e) →
        ∃ (e : Nat → Nat → FVal) (r : Nat → FRes) (elems : BitVec 40960) (counts : Word),
          exec (.mmaMint acc mode a b la) s
            = .next ((touchRegion (touchRegion (touchRegion s th.core .load ra) th.core .load rt) th.core .load rb).putThread s.cur
              (th.issueHead s.cycle (.mma acc elems t.clamp counts) (.tile acc)
                (if regionL ra || regionL rt || regionL rb then 0 else la.toNat) (regionStarts (ra ++ rt ++ rb))))
          ∧ (∀ i, i < 64 → decodes i (e i)) ∧ CountsAre counts 1024 (fun n => (r n).2)
          ∧ ∀ n, n < 1024 → elems.extractLsb' (40 * n) 40 = BitVec.ofNat 40 (r n).1
            ∧ TileElement (th.mxcfg.extractLsb' 0 2) (mode == 2)
              (if mode = 1 then none else some (fp40.decode (t.elems.extractLsb' (40 * n) 40).toNat)) 64
              (fun k => e4m3.decode ((regionBytes s ra).getD (64 * (n / 32) + k) 0))
              (fun k => e (2 * (n % 32) + k / 32) (k % 32)) (r n))
      ∧ (∀ k, k < 64 → (∀ i, i < k → ∃ e, decodes i e) → (∀ e, ¬ decodes k e) →
        exec (.mmaMint acc mode a b la) s = .next (s.takeTrap s.cur { cause := .mintDecodeError, val := addr k })))

/-- R238 and R239: MLD and MST move 32 rows of 32 elements of the size z of their code, X[b] [2:0], row i at X[a] + i × stride with the
stride X[b] [63:32], or that of packed rows when it is 0. With the rows checked, MLD issues with the elements that the bytes
give: an FP32 widened or an INT32 sign-extended, or bits [39:0] of a container (code 7). MST issues with one lane for each of
the 1,024 elements, at X[a] + i × stride + j × z and in the place that its row's check gave: an FP40 element narrowed under
MXCFG.rm, an integer one clamped under SAT, which counts OF, or cut to its low bits, or the whole container. Both hold what their
elements count. The tile and the bytes are read when the instruction issues (log 39).

R239: bits [31:3] of X[b] trap RESERVED_FIELD, then a tile that is not held MATRIX_TILE_NOT_HELD, then a code that the tile's kind does
not admit MATRIX_FORMAT_INVALID, 4 for MLD and 5 for MST; then the first row that fails decides the trap, with its pointer. In a
row of MLD a marked byte, or a word that is not VALUE, is met by the head. A row of MST fails also by a word whose tag cannot be read
(UNCORRECTABLE_DATA at the row) or by an EVALUATING word of another evaluator (CELL_BUSY_WRITE at the cell); it decides before the failing
row after it. -/
def Obligations.TileMovesConvertTheirElements : Prop :=
  ∀ (s : State) (th : Thread) (acc : BitVec 3) (a b : Reg) (la : BitVec 4), s.current = some th →
    let t := (s.core th.core).tile acc
    let code := ((th.getX b).extractLsb' 0 3).toNat
    let z := [4, 2, 2, 1, 1, 4, 1, 8].getD code 8
    let stride : Word := if (th.getX b).extractLsb' 32 32 = 0 then BitVec.ofNat 64 (32 * z) else ((th.getX b).extractLsb' 32 32).zeroExtend 64
    let row := fun i => th.getX a + BitVec.ofNat 64 i * stride
    let clean := (th.getX b).extractLsb' 3 29 = 0
    let load := fun i => checkRegion s th .load .engineLoad (row i) (32 * z) z
    let store := fun i => checkRegion s th .store .engineStore (row i) (32 * z) z
    let data := fun (r : List (Acc × Nat)) => regionHeld s r = false ∧ regionBad s r = none ∧ regionCells s r = []
    let old := fun n => t.elems.extractLsb' (40 * n) 40
    (¬ clean → ∀ i ∈ [Instr.mld acc a b la, .mst acc a b la],
      exec i s = .next (s.takeTrap s.cur { cause := .reservedField, val := th.pc }))
    ∧ (clean → t.holder ≠ some s.cur → ∀ i ∈ [Instr.mld acc a b la, .mst acc a b la],
      exec i s = .next (s.takeTrap s.cur { cause := .matrixTileNotHeld, val := acc.zeroExtend 64 }))
    ∧ (clean → t.holder = some s.cur → code ∉ (if t.int then [5, 7] else [0, 7]) →
      exec (.mld acc a b la) s = .next (s.takeTrap s.cur { cause := .matrixFormatInvalid, val := 4 }))
    ∧ (clean → t.holder = some s.cur → code ∉ (if t.int then [5, 6, 7] else [0, 1, 2, 3, 4, 7]) →
      exec (.mst acc a b la) s = .next (s.takeTrap s.cur { cause := .matrixFormatInvalid, val := 5 }))
    ∧ (clean → t.holder = some s.cur → code ∈ (if t.int then [5, 7] else [0, 7]) →
      (∀ rows : Nat → List (Acc × Nat), (∀ i, i < 32 → load i = .ok (rows i) ∧ data (rows i) ∧ (regionBytes s (rows i)).length = 32 * z) →
        let all := ((List.range 32).map rows).flatten
        let value := fun n => (List.range z).foldl (fun v k => v + (regionBytes s (rows (n / 32))).getD (n % 32 * z + k) 0 * 256 ^ k) 0
        let e := fun n => if code = 7 then (value n % 2 ^ 40, 0)
          else if t.int then (((BitVec.ofNat 32 (value n)).signExtend 40).toNat, 0) else fp40.widen (fp32.decode (value n))
        ∃ elems counts, exec (.mld acc a b la) s = .next ((touchRegion s th.core .load all).putThread s.cur
            (th.issueHead s.cycle (.mld acc elems counts) (.tile acc) (if regionL all then 0 else la.toNat) (regionStarts all)))
          ∧ CountsAre counts 1024 (fun n => (e n).2)
          ∧ ∀ n, n < 1024 → elems.extractLsb' (40 * n) 40 = BitVec.ofNat 40 (e n).1)
      ∧ (∀ (rows : Nat → List (Acc × Nat)) (k : Nat), k < 32 → (∀ i, i < k → load i = .ok (rows i) ∧ data (rows i)) →
        (∀ tr, load k = .error (some tr) →
          exec (.mld acc a b la) s = .next ((s.holdLeaf { tr with val := row k }).takeTrap s.cur { tr with val := row k }))
        ∧ (load k = .ok (rows k) → regionHeld s (rows k) = false →
          let all := ((List.range (k + 1)).map rows).flatten
          let goes := fun (op : HeadOp) =>
            exec (.mld acc a b la) s = .next ((touchRegion s th.core .load all).putThread s.cur
              (th.issueHead s.cycle op (.tile acc) (if regionL all then 0 else la.toNat) (regionStarts all)))
          (∀ p, regionBad s (rows k) = some p → goes (.marked acc (row k)))
          ∧ (∀ q l, regionBad s (rows k) = none → regionCells s (rows k) = q :: l → goes (.cells acc q.1 q.2)))))
    ∧ (clean → t.holder = some s.cur → code ∈ (if t.int then [5, 6, 7] else [0, 1, 2, 3, 4, 7]) →
      (∀ rows : Nat → List (Acc × Nat), (∀ i, i < 32 → store i = .ok (rows i) ∧ (regionBytes s (rows i)).length = 32 * z) →
        let all := ((List.range 32).map rows).flatten
        let e := fun n =>
          let v := (old n).toInt
          let lo : Int := -2 ^ (8 * z - 1)
          let hi : Int := 2 ^ (8 * z - 1) - 1
          if code = 7 then ((if t.int then (old n).signExtend 64 else (old n).zeroExtend 64).toNat, 0)
          else if t.int then
            if th.mxcfg.getLsbD 2 then
              if v < lo then (2 ^ (8 * z - 1), 4) else if hi < v then (2 ^ (8 * z - 1) - 1, 4) else ((v % 2 ^ (8 * z)).toNat, 0)
            else ((v % 2 ^ (8 * z)).toNat, 0)
          else ([fp32, bf16, fp16, e4m3, e5m2].getD code fp32).narrow (th.mxcfg.extractLsb' 0 2) (fp40.decode (old n).toNat)
        ∃ lanes counts, exec (.mst acc a b la) s = .next ((touchRegion s th.core .store all).putThread s.cur
            (th.issueHead s.cycle (.mst acc z lanes counts) (.tile acc) (if regionL all then 0 else la.toNat)))
          ∧ CountsAre counts 1024 (fun n => (e n).2)
          ∧ lanes.map (fun l => l.idx) = List.range 1024
          ∧ ∀ l ∈ lanes, l.data = BitVec.ofNat 64 (e l.idx).1
            ∧ l.ptr = row (l.idx / 32) + BitVec.ofNat 64 (l.idx % 32 * z)
            ∧ ∃ before piece after q, rows (l.idx / 32) = before ++ piece :: after ∧ q < piece.2
              ∧ (before.map (fun p => p.2)).sum + q = l.idx % 32 * z
              ∧ l.loc = piece.1.loc.shift q ∧ l.lpage = piece.1.lpage)
      ∧ (∀ (rows : Nat → List (Acc × Nat)) (k : Nat) (tr : Trap), k < 32 → (∀ i, i < k → store i = .ok (rows i) ∧ regionHeld s (rows i) = false) →
        store k = .error (some tr) →
        (∀ i, i < k → ∀ q ∈ rows i, ∀ j, j < q.2 → (q.1.ptr + BitVec.ofNat 64 j).extractLsb' 60 4 ≠ 4) →
        let ok := fun (p : Nat) => tagBad s p = false ∧ (s.tag p = 2 → th.evalOf = some (p / 8 * 8))
        let clean := fun i => ∀ q ∈ rows i, q.1.lpage = true → ∀ p, q.1.loc = .dram p → ∀ j, j < q.2 → ok (p + j)
        ((∀ i, i < k → clean i) →
          exec (.mst acc a b la) s = .next ((s.holdLeaf { tr with val := row k }).takeTrap s.cur { tr with val := row k }))
        ∧ (∀ i q more p, i < k → (∀ j, j < i → clean j) → rows i = q :: more → 0 < q.2 → q.1.lpage = true →
          q.1.loc = .dram p → q.1.ptr = row i →
          (tagBad s p = true → exec (.mst acc a b la) s = .next (s.takeTrap s.cur { cause := .uncorrectableData, val := row i }))
          ∧ (tagBad s p = false → s.tag p = 2 → th.evalOf ≠ some (p / 8 * 8) →
            exec (.mst acc a b la) s = .next (s.takeTrap s.cur { cause := .cellBusyWrite, val := row i &&& ~~~ 7 })))))

/-- R240: MRDV writes rows 2q and 2q + 1 of a held tile, q = X[b] [3:0], to the 64 lanes of V[v], an FP40 element narrowed to FP32 and an
integer one to 32 bits, clamped under SAT, which counts OF; MWRV writes the lanes of V[v] to those rows and keeps the others. Both add the
flags of their elements to MXCNT. Of a tile that the thread does not hold both trap MATRIX_TILE_NOT_HELD with its number. -/
def Obligations.TileRowsMoveToVectors : Prop :=
  ∀ (s : State) (th : Thread) (acc : BitVec 3) (v : VReg) (b : Reg), s.current = some th →
    let c := s.core th.core
    let t := c.tile acc
    let q := ((th.getX b).extractLsb' 0 4).toNat
    let old := fun n => (t.elems.extractLsb' (40 * n) 40)
    (t.holder ≠ some s.cur → th.head = none → ∀ i ∈ [Instr.mrdv acc v b, .mwrv acc v b],
      exec i s = .next (s.takeTrap s.cur { cause := .matrixTileNotHeld, val := acc.zeroExtend 64 }))
    ∧ (t.holder = some s.cur →
      let form := fun l =>
        let e := old (64 * q + l)
        if t.int then
          if th.mxcfg.getLsbD 2 then
            if e.toInt < -2 ^ 31 then (2 ^ 31, 4) else if 2 ^ 31 - 1 < e.toInt then (2 ^ 31 - 1, 4) else ((e.toInt % 2 ^ 32).toNat, 0)
          else (e.toNat % 2 ^ 32, 0)
        else fp32.narrow (th.mxcfg.extractLsb' 0 2) (fp40.decode e.toNat)
      ∃ (x : VWord) (counts : Word), exec (.mrdv acc v b) s = .next (((s.putCore th.core (c.setTile acc t)).putThread s.cur
          (({ th.setV v x with mxcnt := addCounts th.mxcnt counts }).retire s.cycle).countShadow).grantTiles th.core)
        ∧ CountsAre counts 64 (fun l => (form l).2)
        ∧ ∀ l, l < 64 → element x 32 l = BitVec.ofNat 32 (form l).1)
    ∧ (t.holder = some s.cur →
      let form := fun l =>
        let e := element (th.getV v) 32 l
        if t.int then ((e.signExtend 40).toNat, 0) else fp40.widen (fp32.decode e.toNat)
      ∃ (t' : Tile) (counts : Word), exec (.mwrv acc v b) s = .next (((s.putCore th.core (c.setTile acc t')).putThread s.cur
          (({ th with mxcnt := addCounts th.mxcnt counts }).retire s.cycle).countShadow).grantTiles th.core)
        ∧ CountsAre counts 64 (fun l => (form l).2) ∧ t'.holder = t.holder ∧ t'.int = t.int
        ∧ ∀ n, n < 1024 →
          let written := 64 * q ≤ n ∧ n < 64 * q + 64
          t'.elems.extractLsb' (40 * n) 40 = (if written then BitVec.ofNat 40 (form (n - 64 * q)).1 else old n)
          ∧ t'.clamp.getLsbD n = if t.int = true ∧ written then false else t.clamp.getLsbD n)

/-- R236 and R231: when the head at the front of its core's matrix queue is an MMA or an MLD, its tile gets the elements that the head
holds and MXCNT gains its counts, each counter saturating at 0xFFFF; an MST writes its elements' bytes, in DRAM and in banks.
The thread retires its head.

R235, R239 and R245: a head that met a marked byte traps UNCORRECTABLE_DATA at its pointer, with ESKIP the shadows that have retired
(for MLD the pointer of the row); one that met a word that is not VALUE is performed again, whole, once the word is VALUE. The first
element of an MST whose word's tag cannot be read traps UNCORRECTABLE_DATA at the pointer of its row, and the first that meets an
EVALUATING word of another evaluator CELL_BUSY_WRITE at the cell's address; no byte changes. That a mark is met when the head issues, and the
tags of a store when it completes, is log 39's reading. The tags of the words written follow R317 as for a vector store. -/
def Obligations.MatrixHeadsCompleteInOrder : Prop :=
  ∀ (s : State) (t : Nat) (th : Thread) (h : Head) (acc : BitVec 3) (elems : BitVec 40960) (clamp : BitVec 1024) (counts : Word),
    s.thread t = some th → th.head = some h → queueFirst s t = true →
    let c := s.core th.core
    let done := { th with mxcnt := addCounts th.mxcnt counts }.completeHead s.cycle
    (h.op = .mma acc elems clamp counts →
      exec (.mmaComplete t) s = .next ((s.putCore th.core (c.setTile acc { c.tile acc with elems := elems, clamp := clamp })).putThread t done))
    ∧ (h.op = .mld acc elems counts →
      exec (.mldMstComplete t) s = .next ((s.putCore th.core (c.setTile acc { c.tile acc with elems := elems, clamp := 0 })).putThread t done))
    ∧ (∀ z lanes, Tidy s → h.op = .mst acc z lanes counts →
      (∀ l ∈ lanes, lineHeld s l.loc z = false ∧ ∃ x, l.loc = .dram x ∨ l.loc = .bank x) →
      (∀ l ∈ lanes, l.ptr.extractLsb' 60 4 ≠ 4) → lanes.Pairwise (fun l k => l.idx ≠ k.idx) →
      let ok := fun (l : Lane) =>
        ∀ x, l.loc = .dram x → l.lpage = true → tagBad s x = false ∧ (s.tag x = 2 → th.evalOf = some (x / 8 * 8))
      ((∀ l ∈ lanes, ok l) → ∃ u, exec (.mldMstComplete t) s = .next u ∧ u.threads = s.threads.put t done ∧ u.cores = s.cores
        ∧ (z = 1 ∨ z = 2 ∨ z = 4 ∨ z = 8 → (∀ l ∈ lanes, ∀ p, l.loc = .dram p → p % z = 0) → ∀ x,
          ((∀ l ∈ lanes, ∀ p, l.loc = .dram p → p / 8 ≠ x / 8) → u.tag x = s.tag x)
          ∧ ((∃ l ∈ lanes, ∃ p, l.loc = .dram p ∧ p / 8 = x / 8) → (s.tag x ≠ 2 → u.tag x = 0)
            ∧ (s.tag x = 2 → (∀ l ∈ lanes, ∀ p, l.loc = .dram p → p / 8 = x / 8 → l.lpage = true) → u.tag x = 2)))
        ∧ (∀ x, (∀ l ∈ lanes, ∀ p, l.loc = .dram p → x < p ∨ p + z ≤ x) → u.mem.read x = s.mem.read x)
        ∧ (∀ x, (∀ l ∈ lanes, ∀ p, l.loc = .bank p → x < p ∨ p + z ≤ x) → u.sram.read x = s.sram.read x)
        ∧ (∀ before l after p i, lanes = before ++ l :: after → z ≤ 8 → i < z →
          (l.loc = .dram p → (∀ k ∈ after, ∀ q, k.loc = .dram q → p + i < q ∨ q + z ≤ p + i) →
            u.mem.read (p + i) = l.data.extractLsb' (8 * i) 8)
          ∧ (l.loc = .bank p → (∀ k ∈ after, ∀ q, k.loc = .bank q → p + i < q ∨ q + z ≤ p + i) →
            u.sram.read (p + i) = l.data.extractLsb' (8 * i) 8)))
      ∧ (∀ before l after p, lanes = before ++ l :: after → (∀ k ∈ before, ok k) → l.loc = .dram p → l.lpage = true →
        (∀ r ∈ lanes, r.idx = l.idx / 32 * 32 → tagBad s p = true →
          exec (.mldMstComplete t) s = .next (s.trapHead t { cause := .uncorrectableData, val := r.ptr } h.retired))
        ∧ (tagBad s p = false → s.tag p = 2 → th.evalOf ≠ some (p / 8 * 8) →
          exec (.mldMstComplete t) s = .next (s.trapHead t { cause := .cellBusyWrite, val := l.ptr &&& ~~~ 7 } 0))))
    ∧ (∀ (c d : Word) (k : Nat), k < 4 → ((addCounts c d).extractLsb' (16 * k) 16).toNat
      = min 65535 ((c.extractLsb' (16 * k) 16).toNat + (d.extractLsb' (16 * k) 16).toNat))
    ∧ (∀ i ∈ [Instr.mmaComplete t, .mldMstComplete t],
      (∀ ptr, h.op = .marked acc ptr → exec i s = .next (s.trapHead t { cause := .uncorrectableData, val := ptr } h.retired))
      ∧ (∀ pa ptr, h.op = .cells acc pa ptr → s.tag pa = 0 →
        exec i s = .next (s.putThread t { th with pc := h.pc, redo := if h.next = h.pc + 4 then none else some h.next,
                                                   head := none, window := none })))
    ∧ ∀ i, i < 4 → (addCounts th.mxcnt counts).extractLsb' (16 * i) 16
        = BitVec.ofNat 16 (min 0xFFFF ((th.mxcnt.extractLsb' (16 * i) 16).toNat + (counts.extractLsb' (16 * i) 16).toNat))

/-! ### Words, steps and the state -/

/-- R94: a write of an x register other than x0 and of an m register other than m0 is what a read of it then gives, and every other
register of the three files reads as before; a write of x0 or m0 is discarded, x0 reads 0 and m0 reads all ones. -/
def Obligations.RegistersReadBackWhatWasWritten : Prop :=
  ∀ (th : Thread) (r q : Reg) (v : Word) (a b : VReg) (w : VWord) (k l : MReg) (m : MWord),
    ((th.setX r v).getX q = if q = 0 then 0 else if q = r then v else th.getX q)
    ∧ (th.setX 0 v = th) ∧ (th.setM 0 m = th)
    ∧ ((th.setV a w).getV b = if b = a then w else th.getV b)
    ∧ ((th.setM k m).getM l = if l = 0 then BitVec.allOnes 256 else if l = k then m else th.getM l)
    ∧ (th.setX r v).v = th.v ∧ (th.setX r v).m = th.m ∧ (th.setX r v).pc = th.pc
    ∧ (th.setV a w).x = th.x ∧ (th.setV a w).m = th.m ∧ (th.setV a w).pc = th.pc
    ∧ (th.setM k m).x = th.x ∧ (th.setM k m).v = th.v ∧ (th.setM k m).pc = th.pc

/-- What reset leaves: every slot EMPTY (R85), the cycle count 0 (R95), every bank in CACHE mode (R14) and its port's pointer at
core 0 (R92), the CONTROL registers 0 (R148), every tile free, FP40 and +0 with its clamp bits clear (R227), DRAM zero with every
tag VALUE and nothing uncorrectable (R317, R374), no launch, and the three memories in canonical form. The model's own choices: an
SRAM byte reads 0 and no SRAM word is uncorrectable (log 3, log 57), and no doorbell is set (log 10). -/
def Obligations.ResetLeavesTheStatedValues : Prop :=
  let s := State.reset
  (∀ h, s.inSlot h = none) ∧ s.threads = [] ∧ s.cycle = 0 ∧ (∀ b, (s.bank b).mode = .cache ∧ (s.bank b).port = 0)
  ∧ (∀ c, (s.core c).ctxspill = 0 ∧ (s.core c).ctxsplen = 0 ∧ (s.core c).deqspill = 0 ∧ (s.core c).wdog = 0)
  ∧ (∀ c acc, let t := (s.core c).tile acc; t.holder = none ∧ t.int = false ∧ t.elems = 0 ∧ t.clamp = 0)
  ∧ (∀ a, s.mem.read a = 0 ∧ s.tag a = 0) ∧ (∀ a n, s.isBad a n = false) ∧ (∀ l, s.launch l = none)
  ∧ (∀ a n, s.sram.read a = 0 ∧ s.isBadSram a n = false) ∧ (∀ c, (s.cluster c).doorbell = false) ∧ Tidy s

/-- The invariant of the tables: every step keeps DRAM, the banks and the MSI-X table in canonical form (addresses strictly rising, no entry
equal to what an unlisted address reads as), so that equal memories are equal data, and the threads, the tags, the evaluation
entries, the launches and the halts in rising order of their keys. It is the model's own (log 2, log 3). -/
def Obligations.TablesStayCanonical : Prop :=
  ∀ s t : State, Tidy s → step s = .next t → Tidy t

/-- R87 to R92, R45 and R64: when nothing else is due, the thread that a core issues runs the instruction that its word decodes to. The
word is the four bytes at the PC's physical address, the least significant first (or those that the instruction cache
holds). `step` then is `exec` of it in a state where the issue is noted, the fetch's translation has been used and the ports of the
banks it accesses have granted it; a window first admits it, ends or makes it a LOOKAHEAD_HAZARD (R53, R55). Where it loses a
port it is withdrawn with nothing done (R92). A fetch that traps and a word that does not decode are traps of the thread instead, and
one that waits is withdrawn. What is due first, and the order of the cores, is the model's choice (log 1, log 5).

R155: where the word has trapped, a TLB entry of its thread's core that refuses one of its accesses, and that a new walk admits, is
replaced all the same; where it has not trapped, or makes no access, nothing is added to its meaning. -/
def Obligations.StepRunsTheDecodedInstruction : Prop :=
  ∀ (s : State) (core t : Nat) (th : Thread), s.agenda = [] → s.phase = 0 → dueBefore s = none → nextIssue s = some (core, t, th) →
    let s0 := noteIssue s core t th
    let th0 := { th with lastIssue := some s.cycle }
    (∀ tr, fetch s0 th = .error (some tr) → step s = .next (s0.takeTrap t tr))
    ∧ (fetch s0 th = .error none → step s = .next s0)
    ∧ (∀ r, fetch s0 th = .ok r →
      let banks := banksWanted s0 th r.word
      let s1 := banks.foldl (fun st b => grantPort st b.1 (corePlace b.1 core) b.2) (touch s0 (some core) .fetch r.hit)
      let runs := fun (i : Instr) (st : State) => step s = afterTrap s0 t th r.word (exec i st)
      (losesPort s0 core (banks.map (fun b => b.1)) = true → step s = .next s0)
      ∧ (losesPort s0 core (banks.map (fun b => b.1)) = false →
        (∀ e, decode r.word = .error e → step s = .next (s1.takeTrap t { val := th.pc, cause := match e with
            | .illegalOpcode => .illegalOpcode
            | .reservedField => .reservedField }))
        ∧ (∀ i, decode r.word = .ok i →
          (th.window = none → runs i s1)
          ∧ (∀ w, th.window = some w →
            (windowWord r.word true w.dest = .eligible → runs i s1)
            ∧ (windowWord r.word true w.dest = .ends → runs i (s1.putThread t th0.endWindow))
            ∧ (windowWord r.word true w.dest = .hazard →
              step s = .next (s1.takeTrap t { cause := .lookaheadHazard, val := w.headPc })))))
      ∧ (∀ o, accessPointers th r.word = [] → afterTrap s0 t th r.word o = o)
      ∧ (∀ u, (∀ x, u.thread t = some x → x.trapUntil ≠ some (s0.cycle + 16)) → afterTrap s0 t th r.word (.next u) = .next u)
      ∧ (∀ u x p n, accessPointers th r.word = [(p, n)] → u.thread t = some x → x.trapUntil = some (s0.cycle + 16) →
        x.instret = th.instret → x.entered = .supervisor →
        x.cause = 25 ∨ x.cause = 28 ∨ x.cause = 29 ∨ x.cause = 57 →
        ∀ va e h, spaceOf (cxOf u th) (clusterOfCore th.core) (accessKind r.word) false p = .ok (.global va) →
          p.toNat % accessAlign r.word n = 0 → tlbFind u th.core (cxOf u th).asid va = some e →
          admits (cxOf u th).mode (accessKind r.word) e.pte = false →
          walkHit u (cxOf u th) (accessKind r.word) va p = .ok h →
          afterTrap s0 t th r.word (.next u) = .next (touch u (some th.core) (accessKind r.word) h)))
    ∧ (∀ h, th.pc.toNat % 4 = 0 → fetchAddressOk th.pc = true →
      translate s0 (cxOf s0 th) .fetch (th.pc.extractLsb' 0 52).toNat th.pc = .ok h →
      let pa := h.entry.pa (th.pc.extractLsb' 0 52).toNat
      (s0.core th.core).icache.find (pa / 32) = none → ownedAt s0 true pa 4 = false → s0.isBad pa 4 = false →
      fetch s0 th = .ok { word := s0.mem.read (pa + 3) ++ s0.mem.read (pa + 2) ++ s0.mem.read (pa + 1) ++ s0.mem.read pa, hit := h })

/-- The thirteen words that the spec writes out under its worked encodings (R46 to R51), one of each format, decode to the instructions
they stand for. -/
def Obligations.SpecWordsDecode : Prop :=
  decode 0x000A4181#32 = .ok (.add 3 4 5)
  ∧ decode 0x21107302#32 = .ok (.div 6 7 8 2)
  ∧ decode 0xFFFE6284#32 = .ok (.addi 5 6 0x7FFF)
  ∧ decode 0x0001238D#32 = .ok (.lih 7 18)
  ∧ decode 0xFFD26290#32 = .ok (.bne 5 6 0xFFD)
  ∧ decode 0x00010091#32 = .ok (.call 1 16)
  ∧ decode 0x0060A497#32 = .ok (.ld 9 10 0 3)
  ∧ decode 0x05A0B09F#32 = .ok (.ldo 1 11 0 1 3)
  ∧ decode 0x0148A3A0#32 = .ok (.aadd 7 10 4 0 5 0)
  ∧ decode 0x001002A8#32 = .ok (.csrr 5 0x001)
  ∧ decode 0x000190B0#32 = .ok (.vadd 1 2 3 0 0)
  ∧ decode 0x0220C238#32 = .ok (.vld 4 12 0 1 2)
  ∧ decode 0x0016A140#32 = .ok (.mmaE4m3 2 0 10 11 0)

/-- R45 to R51, R59, R61 and R65: for every well-formed instruction that has a word, the decoder reads that word as this instruction, with
every operand at every value. -/
def Obligations.DecodeInvertsEncode : Prop :=
  ∀ (i : Instr) (w : BitVec 32), i.wellFormed = true → encode i = some w → decode w = .ok i

/-- R64 and R65: a word that decodes is the encoding of the well-formed instruction that it decodes to, so no two words mean one instruction and
no reserved bit is dropped. -/
def Obligations.EncodeInvertsDecode : Prop :=
  ∀ (i : Instr) (w : BitVec 32), decode w = .ok i → i.wellFormed = true ∧ encode i = some w

/-! ### Atomics and the soft-max merge -/

/-- R303 to R308, R310 and R312, issue: an ATOM that passes its checks (R306) waits at its home slice with its operands, MULT, FRM, WID and
INSTRET [31:0] as they are at issue; on a D page its record is staged, and 64 bytes are reserved in the launch's budget
first, or it traps D_STAGING_FULL when they do not fit. A failed check traps. SMERGE does the same with its triple, M and L
from X[b] and O from the v registers d upward; it traps on L and K pages.

R306 order 2: a pointer of CLUSTER, PEER or CONTROL space traps SPACE_INVALID, and CONTROL in user mode PRIVILEGED. R370: through the
package's own REMOTE number an ATOM acts on the package's own memory, translated under the table bound to it (log 44); another package's D page
stages there too (R309; log 81). -/
def Obligations.AtomicsSendTheirRequest : Prop :=
  ∀ (s : State) (th : Thread) (d a b : Reg) (scope : BitVec 3) (ord : BitVec 2), s.current = some th →
    let P := th.getX a
    let waits := fun (u : State) (w : Wait) =>
      Host.Outcome.next (u.putThread s.cur { th with wait := some w, entered := .no, window := none })
    let seqno := (th.instret.extractLsb' 0 32).toNat
    let issues := fun (i : Instr) (op size : Nat) =>
      (∀ acc, atomAccess s th P size (d != 0) = .ok acc →
        let req := fun staged => Wait.atom
          { d := d, op := op, size := size, ptr := P, loc := acc.loc, lpage := acc.lpage, staged := staged, b := th.getX b,
            c := th.getX (b + 1), mult := th.mult.toNat, frm := th.frm, wid := th.wid, seqno := seqno }
        let u := touchAcc s (some th.core) .store acc
        (∀ x, acc.loc = .dram x → stagedAccess s acc = (acc.hit.any (fun h => h.entry.pte.getLsbD 8)))
        ∧ (stagedAccess s acc = false → exec i s = waits u (req false))
        ∧ (∀ l, stagedAccess s acc = true → s.launches.find th.lctx.toNat = some l →
          (l.budget + 64 ≤ l.hdr.stagesize →
            exec i s = waits (u.putLaunch th.lctx.toNat { l with budget := l.budget + 64 }) (req true))
          ∧ (l.hdr.stagesize < l.budget + 64 → exec i s = .next (s.takeTrap s.cur { cause := .dStagingFull, val := P }))))
      ∧ (∀ tr, atomAccess s th P size (d != 0) = .error (some tr) → exec i s = .next ((s.holdLeaf tr).takeTrap s.cur tr))
      ∧ ((P.extractLsb' 60 4 = 1 ∨ P.extractLsb' 60 4 = 2 ∨ P.extractLsb' 60 4 = 15 ∧ th.mode = .supervisor) →
        exec i s = .next (s.takeTrap s.cur { cause := .spaceInvalid, val := P }))
      ∧ (P.extractLsb' 60 4 = 15 → th.mode = .user → exec i s = .next (s.takeTrap s.cur { cause := .privileged, val := P }))
      ∧ (∀ root h acc, P.extractLsb' 60 4 = 4 → s.fabric.torus = false → (P.extractLsb' 52 8).toNat = s.fabric.device →
        s.fabric.device < 192 → P.toNat % size = 0 → s.helben.remotes.find s.fabric.device = some root →
        walkHit s { cxOf s th with core := none, asid := 0, ptbase := root } .store (P.extractLsb' 0 52).toNat P = .ok h →
        atomAccess s th P size (d != 0) = .ok acc → acc.loc = .dram (h.entry.pa (P.extractLsb' 0 52).toNat) ∧ acc.hit = some h)
    (∀ sz : BitVec 1, let n := if sz = 0 then 8 else 4
      issues (.aadd d a scope ord b sz) 0 n ∧ issues (.aand d a scope ord b sz) 2 n ∧ issues (.aor d a scope ord b sz) 3 n
      ∧ issues (.axor d a scope ord b sz) 4 n ∧ issues (.amin d a scope ord b sz) 5 n ∧ issues (.amax d a scope ord b sz) 6 n
      ∧ issues (.aminn d a scope ord b sz) 7 n ∧ issues (.amaxn d a scope ord b sz) 8 n ∧ issues (.aswp d a scope ord b sz) 11 n
      ∧ issues (.acas d a scope ord b sz) 12 n ∧ issues (.aaddo d a scope ord b sz) 13 n)
    ∧ issues (.afadd d a scope ord b) 1 4 ∧ issues (.afmin d a scope ord b) 9 4 ∧ issues (.afmax d a scope ord b) 10 4
    ∧ issues (.afaddo d a scope ord b) 14 4
    ∧ (∀ (v : VReg) (op : BitVec 5) (first : Nat × Hit) (rest : List (Nat × Hit)),
      smergeBlocks s th P (1 + 4 * (op.toNat + 1)) = .ok (first :: rest) →
      let hits := first :: rest
      let n := 64 * (1 + 4 * (op.toNat + 1))
      let dpage := first.2.entry.pte.getLsbD 8
      let o := ((List.range (op.toNat + 1)).map (fun i => (List.range 64).map (fun j =>
        element (th.getV (v + BitVec.ofNat 4 i)) 32 j))).flatten
      let req := Wait.smerge
        { ptr := P, blocks := hits.map (fun h => h.1), op := op.toNat, staged := dpage, m := (th.getX b).extractLsb' 0 32,
          l := (th.getX b).extractLsb' 32 32, o := o, mult := th.mult.toNat, frm := th.frm, wid := th.wid, seqno := seqno }
      let u := hits.foldl (fun st h => touch st (some th.core) .store h.2) s
      let plain := ∀ h ∈ hits, h.2.entry.pte.getLsbD 9 = false ∧ h.2.entry.pte.getLsbD 10 = false
      watched s th.core P n = false → (dpage = true → th.lctx ≠ 0) →
      (¬ plain → exec (.smerge v a scope ord b op) s = .next (s.takeTrap s.cur { cause := .storeProtection, val := P }))
      ∧ (plain → dpage = false → exec (.smerge v a scope ord b op) s = waits u req)
      ∧ (∀ l, plain → dpage = true → s.launches.find th.lctx.toNat = some l →
        (l.budget + n ≤ l.hdr.stagesize →
          exec (.smerge v a scope ord b op) s = waits (u.putLaunch th.lctx.toNat { l with budget := l.budget + n }) req)
        ∧ (l.hdr.stagesize < l.budget + n →
          exec (.smerge v a scope ord b op) s = .next (s.takeTrap s.cur { cause := .dStagingFull, val := P }))))

/-- R303, R304, R305, R308 and R312, the slice: a bound thread's ATOM on a VALUE word writes its new value to its bytes and, for d not x0,
the old value to X[d] (the flags in [36:32] of a float form); every other byte reads as before and the thread goes on. The word becomes VALUE
and no other tag changes (R317). SMERGE
merges its partial into the triple: the greater M, L and each O scaled by their weights and rounded once, the rest of the
head zero; two −∞ partials leave it, a NaN makes all of it NaN. A staged record enters the launch's list instead.

R305 and R308: AFADD's new value is the exact sum of the old one and k × B, rounded once, and each merged number the exact sum of the old one
by its weight and k times the partial's by its own, rounded once; a product that raises NV makes it NaN with NV (R192). -/
def Obligations.SlicePerformsItsAtomics : Prop :=
  ∀ (s : State) (t h : Nat) (th : Thread), Tidy s → s.thread t = some th → th.place = .slot h →
    let resumes := fun (u : State) (x : Thread) => u.threads = s.threads.put t { x.retire s.cycle with wait := none, wake := false, kind := 0, again := false }
    (∀ (r : AtomReq) (pa : Nat), th.wait = some (.atom r) → r.staged = false → r.loc = .dram pa → r.size = 4 ∨ r.size = 8 →
      lineHeld s (.dram pa) r.size = false → s.isBad pa r.size = false → (r.lpage = true → s.tag pa = 0) →
      let n := 8 * r.size
      let A : BitVec n := BitVec.ofNat n (s.mem.readLE pa r.size)
      let B : BitVec n := BitVec.ofNat n r.b.toNat
      let C : BitVec n := BitVec.ofNat n r.c.toNat
      let performs := fun (new : BitVec n) (result : Word) =>
        ∃ u, exec (.sliceAtomicPerform t) s = .next u ∧ resumes u (th.setX r.d result) ∧ u.sram = s.sram ∧ u.cores = s.cores
          ∧ u.mem = (performAtom s pa r).1.mem ∧ (pa % r.size = 0 → ∀ x, u.tag x = if x / 8 = pa / 8 then 0 else s.tag x)
          ∧ (∀ i, i < r.size → u.mem.read (pa + i) = new.extractLsb' (8 * i) 8)
          ∧ ∀ x, (x < pa ∨ pa + r.size ≤ x) → u.mem.read x = s.mem.read x
      let ints := fun (new : BitVec n) => performs new (A.signExtend 64)
      let floats := fun (new : FRes) => performs (BitVec.ofNat n new.1) (BitVec.ofNat 64 (A.toNat + new.2.toNat * 2 ^ 32))
      (r.op = 0 → ints (A + BitVec.ofNat n r.mult * B)) ∧ (r.op = 2 → ints (A &&& B)) ∧ (r.op = 3 → ints (A ||| B))
      ∧ (r.op = 4 → ints (A ^^^ B)) ∧ (r.op = 5 → ints (if B.slt A then B else A)) ∧ (r.op = 6 → ints (if A.slt B then B else A))
      ∧ (r.op = 7 → ints (if B.ult A then B else A)) ∧ (r.op = 8 → ints (if A.ult B then B else A)) ∧ (r.op = 11 → ints B)
      ∧ (r.op = 12 → ints (if A = B then C else A)) ∧ (r.op = 13 → ints (A + B))
      ∧ (r.size = 4 →
        (r.op = 1 → ∃ q : FRes, floats q ∧ match exactProduct (.fin false r.mult 0) (fp32.decode B.toNat) with
          | none => q = (0x7FC00000, 1)
          | some P => SumsTo fp32 r.frm (fp32.decode A.toNat) P q)
        ∧ (r.op = 9 → floats (fp32.minMax false A.toNat B.toNat)) ∧ (r.op = 10 → floats (fp32.minMax true A.toNat B.toNat))
        ∧ (r.op = 14 → floats (fp32.add r.frm A.toNat B.toNat))))
    ∧ (∀ (r : SmergeReq), th.wait = some (.smerge r) → r.staged = false → r.blocks.Nodup → (∀ b ∈ r.blocks, b % 64 = 0) →
      64 * r.blocks.length = 64 + 4 * r.o.length → (∀ b ∈ r.blocks, lineHeld s (.dram b) 64 = false ∧ s.isBad b 64 = false) →
      let word := fun (x : State) off => x.mem.readLE (blockAddr r.blocks off) 4
      let m := word s 0
      let m' := r.m.toNat
      let nan := 0x7FC00000
      let others := fun (u : State) => (∀ x, (∀ b ∈ r.blocks, x < b ∨ b + 64 ≤ x) → u.mem.read x = s.mem.read x)
        ∧ resumes u th ∧ u.sram = s.sram
      let zeros := fun (u : State) => ∀ i, 2 ≤ i → i < 16 → word u (4 * i) = 0
      (m = 0xFF800000 → m' = 0xFF800000 → ∃ u, exec (.smergePerform t) s = .next u ∧ u.mem = s.mem ∧ others u)
      ∧ ((fp32.decode m).isNaN || (fp32.decode m').isNaN → ∃ u, exec (.smergePerform t) s = .next u ∧ others u ∧ zeros u
        ∧ word u 0 = nan ∧ word u 4 = nan ∧ ∀ i, i < r.o.length → word u (64 + 4 * i) = nan)
      ∧ (¬ (m = 0xFF800000 ∧ m' = 0xFF800000) → (fp32.decode m).isNaN = false → (fp32.decode m').isNaN = false →
        let M := (fp32.minMax true m m').1
        let weight := fun x => if (fp32.decode x).compare (fp32.decode M) = some .eq then FVal.fin false 1 0
          else fp32.decode (fp32.exp2 (fp32.sub r.frm x M).1).1
        let merged := fun (x y v : Nat) => ∃ q : FRes, v = q.1 % 2 ^ 32
          ∧ match exactProduct (fp32.decode x) (weight m),
              (exactProduct (.fin false r.mult 0) (fp32.decode y)).bind (fun p => exactProduct p (weight m')) with
            | some P, some Q => SumsTo fp32 r.frm P Q q
            | _, _ => q = (0x7FC00000, 1)
        ∃ u, exec (.smergePerform t) s = .next u ∧ others u ∧ zeros u ∧ word u 0 = M % 2 ^ 32
          ∧ u.mem = (performSmerge s r.blocks r.m.toNat r.l.toNat (r.o.map (fun x => x.toNat)) r.mult r.frm).mem
          ∧ merged (word s 4) r.l.toNat (word u 4)
          ∧ ∀ i, i < r.o.length → merged (word s (64 + 4 * i)) (r.o.getD i 0).toNat (word u (64 + 4 * i))))
    ∧ (∀ (l : Launch) (rec : Staged), s.launches.find th.lctx.toNat = some l →
      (∃ r, th.wait = some (.atom r) ∧ r.staged = true ∧ (∀ dev x, r.loc ≠ .remote dev x) ∧ rec = stagedOfAtom r)
        ∨ (∃ r, th.wait = some (.smerge r) ∧ r.staged = true ∧ rec = stagedOfSmerge r) →
      ((s.launches.map (fun p => (p.2.staged.filter (fun x => x.spill.isNone && homeSlice s x.pa == homeSlice s rec.pa)).length)).foldl
        (· + ·) 0 < 1024) →
      ∃ u, exec (.stagedRecordAccept t) s = .next u ∧ resumes u th ∧ u.mem = s.mem ∧ u.sram = s.sram
        ∧ u.launches = s.launches.put th.lctx.toNat { l with staged := l.staged ++ [rec] })

/-! ### Key-value pages -/

/-- R345 to R348 and R350, counters (with log 42): KVRSV of n writes 0 and changes nothing when n is 0, writes 1 and changes nothing when fewer than n pages
of the pool are free of escrow, and else adds n to the pool's escrowed and the purse's remaining and writes 0. KVGIVE of
pointer 0 refunds what remains. A check that fails traps. The pool's counters lie at bytes 0, 4 and 24 of it, a
purse's at 8 and 12; no other byte but a leaf's changes. -/
def Obligations.KvReservationsMoveCounters : Prop :=
  ∀ (s : State) (th : Thread) (d a : Reg) (scope : BitVec 3), Tidy s → s.current = some th →
    (∀ tr, readPurse s th (th.getX a) = .error (some tr) → ∀ i ∈ [Instr.kvrsv d a scope, .kvtake d a scope, .kvgive d a scope],
      exec i s = .next ((s.holdLeaf tr).takeTrap s.cur tr))
    ∧ (∀ u p, readPurse s th (th.getX a) = .ok (u, p) →
      let n := (th.getX d).toNat
      let s0 := kvTouch s th [u.acc, p.acc]
      (n = 0 → exec (.kvrsv d a scope) s = .next (s0.retireX d 0))
      ∧ (n ≠ 0 → p.free + p.granted - p.escrowed < n → exec (.kvrsv d a scope) s = .next (s0.retireX d 1))
      ∧ (∀ ap au, n ≠ 0 → n ≤ p.free + p.granted - p.escrowed → kvWrites s th u p = .ok (ap, au) →
        exec (.kvrsv d a scope) s = .next ((writePurse (writePool s0 th.core ap { p with escrowed := p.escrowed + n }) th.core au
          { u with remaining := u.remaining + n }).retireX d 0))
      ∧ (∀ ap au, th.getX d = 0 → kvWrites s th u p = .ok (ap, au) →
        exec (.kvgive d a scope) s = .next ((writePurse (writePool s0 th.core ap { p with escrowed := p.escrowed - u.remaining })
          th.core au { u with remaining := 0 }).retireX d (BitVec.ofNat 64 u.remaining))))
    ∧ (∀ (acc : Acc) (p : KvPool) (q : KvPurse) (pa : Nat), acc.loc = .dram pa → p.free < 2 ^ 32 → p.escrowed < 2 ^ 32 →
      p.granted < 2 ^ 32 → q.remaining < 2 ^ 32 → q.drawn < 2 ^ 32 →
      let m0 := (touchAcc s (some th.core) .store acc).mem
      let m1 := (writePool s th.core acc p).mem
      let m2 := (writePurse s th.core acc q).mem
      m1.readLE pa 4 = p.free ∧ m1.readLE (pa + 4) 4 = p.escrowed ∧ m1.readLE (pa + 24) 4 = p.granted
      ∧ (∀ x, (x < pa ∨ pa + 8 ≤ x) → (x < pa + 24 ∨ pa + 28 ≤ x) → m1.read x = m0.read x)
      ∧ m2.readLE (pa + 8) 4 = q.remaining ∧ m2.readLE (pa + 12) 4 = q.drawn
      ∧ ∀ x, (x < pa + 8 ∨ pa + 16 ≤ x) → m2.read x = m0.read x)
    ∧ (∀ v, (s.retireX d v).mem = s.mem ∧ (s.retireX d v).thread s.cur = some ((th.setX d v).retire s.cycle).endWindow)

/-- R350, R352, R353 and R357, pages: KVTAKE draws a page from the pool of its purse and writes its base to X[d], with reference count 1, the
issuing die as owner, and a header of scale 1.0, the pool and 0; on an empty purse it traps KV_ESCROW_EMPTY; with a brokered
pool whose cache holds no page of it it waits for Helben, as KVCOW does. KVGIVE and a last KVREL push the page back; an earlier KVREL only takes
one from its count. KVCOW returns a page with one reference as it is, and else a copy, with one reference fewer on the
old page, and one reference on the copy. These steps are performed at once, when no access of another thread to the page is outstanding
and no copy engine owns the leaf's line (logs 21 and 42); Helben's answer is log 43. -/
def Obligations.KvPagesAreDrawnCopiedAndReturned : Prop :=
  ∀ (s : State) (th : Thread) (d a : Reg) (scope : BitVec 3), Tidy s → s.current = some th →
    let die := dieOfCore th.core
    let drawn := fun (u : KvPurse) (p p' : KvPool) (reads : List Acc) (ap au : Acc) =>
      writePurse (writePool (takeCached (kvTouch s th ([u.acc, p.acc] ++ reads)) th.core p.brokered) th.core ap
        { p' with escrowed := p'.escrowed - 1 }) th.core au { u with remaining := u.remaining - 1, drawn := u.drawn + 1 }
    let free := fun (g : KvPage) => ownedAt s true g.leaf 8 = false
    (∀ u p, readPurse s th (th.getX a) = .ok (u, p) →
      (u.remaining = 0 → exec (.kvtake d a scope) s = .next (s.takeTrap s.cur { cause := .kvEscrowEmpty, val := u.addr }))
      ∧ (u.remaining ≠ 0 → kvDraw s th p = .ok none → exec (.kvtake d a scope) s = .next (s.waitCur (.broker p.acc.loc.pa false d a)))
      ∧ (∀ g p' reads ap au, u.remaining ≠ 0 → kvDraw s th p = .ok (some (g, p', reads)) → kvWrites s th u p = .ok (ap, au) →
        pageOutstanding s g.pa = false → free g → lineHeld s (.dram g.pa) 24 = false →
        let s1 := setLeaf (drawn u p p' reads ap au) g 1 die
        let s2 := ((s1.storePa none g.pa 8 0x3F800000).storePa none (g.pa + 8) 8 p.addr.toNat).storePa none (g.pa + 16) 8 0
        exec (.kvtake d a scope) s = .next ((forgetPage s2 g.pa).retireX d g.base))
      ∧ (∀ g, th.getX d ≠ 0 → kvPage s th .load (th.getX d) (th.getX d) = .ok g →
        (g.owner ≠ die → exec (.kvgive d a scope) s = .next (s.takeTrap s.cur { cause := .kvNotOwner, val := th.getX d }))
        ∧ (∀ e ap au, g.owner = die → free g → headerPool s g = .ok p.addr → g.count = 1 → u.drawn ≠ 0 → kvPush s th p = .ok e →
          kvWrites s th u p = .ok (ap, au) →
          let s1 := (touchAcc (kvTouch s th [u.acc, p.acc]) (some th.core) .store e).storePa none e.loc.pa 8 g.base.toNat
          let s2 := writePurse (writePool s1 th.core ap { p with free := p.free + 1 }) th.core au { u with drawn := u.drawn - 1 }
          exec (.kvgive d a scope) s = .next ((setLeaf s2 g 0 g.owner).retireX d 0)))
      ∧ (∀ o, kvPage s th .load (th.getX d) (th.getX d) = .ok o → admits th.mode .load o.pte = true →
        (o.count = 1 → exec (.kvcow d a scope) s = .next ((kvTouch s th [u.acc, p.acc]).retireX d o.base))
        ∧ (1 < o.count → u.remaining = 0 →
          exec (.kvcow d a scope) s = .next (s.takeTrap s.cur { cause := .kvEscrowEmpty, val := u.addr }))
        ∧ (1 < o.count → u.remaining ≠ 0 → lineHeld s (.dram o.pa) 65536 = false → s.isBad o.pa 65536 = false →
          kvDraw s th p = .ok none → exec (.kvcow d a scope) s = .next (s.waitCur (.broker p.acc.loc.pa true d a)))
        ∧ (∀ g p' reads ap au, 1 < o.count → u.remaining ≠ 0 → lineHeld s (.dram o.pa) 65536 = false →
          s.isBad o.pa 65536 = false → kvDraw s th p = .ok (some (g, p', reads)) → kvWrites s th u p = .ok (ap, au) →
          pageOutstanding s g.pa = false → free g → free o → lineHeld s (.dram g.pa) 65536 = false →
          let s1 := (copyBytes (drawn u p p' reads ap au) o.pa g.pa 65536).storePa none (g.pa + 8) 8 p.addr.toNat
          let s2 := setLeaf (setLeaf s1 g 1 die) o (o.count - 1) o.owner
          exec (.kvcow d a scope) s = .next ((forgetPage s2 g.pa).retireX d g.base))))
    ∧ (∀ g, kvPage s th .load (th.getX a) (th.getX a) = .ok g → admits th.mode .load g.pte = true →
      (g.count = 0 → exec (.kvrel d a scope) s = .next (s.takeTrap s.cur { cause := .kvPoolInvalid, val := g.ptr }))
      ∧ (1 < g.count → free g → exec (.kvrel d a scope) s
          = .next ((setLeaf s g (g.count - 1) g.owner).retireX d (BitVec.ofNat 64 (g.count - 1))))
      ∧ (∀ hp p e ap, g.count = 1 → free g → headerPool s g = .ok hp → readPool s th hp = .ok p → kvPush s th p = .ok e →
        kvAccess s th .store p.addr 64 64 = .ok ap →
        let s1 := (touchAcc (kvTouch s th [p.acc]) (some th.core) .store e).storePa none e.loc.pa 8 g.base.toNat
        exec (.kvrel d a scope) s
          = .next ((setLeaf (writePool s1 th.core ap { p with free := p.free + 1 }) g 0 g.owner).retireX d 0)))
    ∧ (∀ (g : KvPage) (count owner : Nat), count < 256 → owner < 4 →
      let u := setLeaf s g count owner
      let leaf := fun (x : State) => (BitVec.ofNat 64 (x.mem.readLE g.leaf 8) : Word)
      (leaf u).extractLsb' 48 8 = BitVec.ofNat 8 count ∧ (leaf u).extractLsb' 56 2 = BitVec.ofNat 2 owner
      ∧ (leaf u).extractLsb' 0 48 = (leaf s).extractLsb' 0 48 ∧ (leaf u).extractLsb' 58 6 = (leaf s).extractLsb' 58 6
      ∧ ∀ x, (x < g.leaf ∨ g.leaf + 8 ≤ x) → u.mem.read x = s.mem.read x)
    ∧ (∀ src dst, src + 65536 ≤ dst ∨ dst + 65536 ≤ src → ∀ x, (copyBytes s src dst 65536).mem.read x
        = if dst ≤ x ∧ x < dst + 65536 then s.mem.read (x - dst + src) else s.mem.read x)

/-- R351, R354 and R355: KVSHARE adds one to a page's count and writes it, or writes 0 and changes nothing at 255; KVSCL writes X[d] [31:0] as
the scale of a page of the issuer's die with at most one reference and returns the old one; KVPASS gives the pages of its
descriptor to the target die and then writes the word to the flag; no TLB of a core of the issuing die then maps one of the pages (R355
step 6). Another die's page traps KV_NOT_OWNER and a shared page KV_SHARED_WRITE. KVSHARE and KVPASS act once no access of another
thread to the page is outstanding (log 21). -/
def Obligations.KvPagesAreSharedPassedAndScaled : Prop :=
  ∀ (s : State) (th : Thread) (d a : Reg) (scope : BitVec 3), Tidy s → s.current = some th →
    let P := th.getX a
    let die := dieOfCore th.core
    let traps := fun (i : Instr) (c : Cause) (v : Word) => exec i s = .next (s.takeTrap s.cur { cause := c, val := v })
    (∀ g, kvPage s th .load P P = .ok g → admits th.mode .load g.pte = true →
      (g.owner ≠ die → traps (.kvshare d a scope) .kvNotOwner g.ptr)
      ∧ (g.owner = die → g.count = 0 → traps (.kvshare d a scope) .kvPoolInvalid g.ptr)
      ∧ (g.owner = die → g.count = 255 → exec (.kvshare d a scope) s = .next (s.retireX d 0))
      ∧ (g.owner = die → g.count ≠ 0 → g.count ≠ 255 → pageOutstanding s g.pa = false → ownedAt s true g.leaf 8 = false →
        exec (.kvshare d a scope) s = .next ((forgetPage (setLeaf s g (g.count + 1) g.owner) g.pa).retireX d
          (BitVec.ofNat 64 (g.count + 1)))))
    ∧ (∀ g, kvPage s th .store P P = .ok g → admits th.mode .store g.pte = true →
      (g.owner ≠ die → traps (.kvscl d a scope) .kvNotOwner g.ptr)
      ∧ (g.owner = die → 1 < g.count → traps (.kvscl d a scope) .kvSharedWrite g.ptr)
      ∧ (g.owner = die → g.count ≤ 1 → lineHeld s (.dram g.pa) 4 = false → s.isBad g.pa 4 = false →
        ∃ u, exec (.kvscl d a scope) s = .next u ∧ u.mem.readLE g.pa 4 = ((th.getX d).extractLsb' 0 32).toNat
          ∧ (∀ x, (x < g.pa ∨ g.pa + 4 ≤ x) → u.mem.read x = s.mem.read x)
          ∧ u.threads = s.threads.put s.cur ((th.setX d (BitVec.ofNat 64 (s.mem.readLE g.pa 4))).retire s.cycle).endWindow
          ∧ u.sram = s.sram ∧ u.cores = s.cores))
    ∧ (∀ w s0, readDescriptor s th P = .ok (w, s0) →
      let head := w.getD 2 0
      let n := (head.extractLsb' 8 8).toNat
      let clean := head.extractLsb' 2 6 = 0 ∧ head.extractLsb' 16 48 = 0 ∧ n ≤ 12 ∧ w.getD 15 0 = 0
      (¬ clean → traps (.kvpass d a scope) .kvPoolInvalid P)
      ∧ (∀ va fa pages, clean → kvGlobal s0 th (w.getD 0 0) = .ok va →
        checkAccess s0 (cxOf s0 th) th.place.handle .store .scalar false (w.getD 0 0) 8 8 = .ok fa → lineHeld s0 fa.loc 8 = false →
        passPages s0 th ((w.drop 3).take n) = .ok pages →
        (∀ g ∈ pages, pageOutstanding s0 g.pa = false ∧ ownedAt s0 true g.leaf 8 = false) →
        let s1 := pages.foldl (fun st g => setLeaf st g g.count (head.extractLsb' 0 2).toNat) (touchAcc s0 (some th.core) .store fa)
        let s2 := pages.foldl (fun st g => forgetPageOn st die g.pa) s1
        exec (.kvpass d a scope) s = .next ((writeLoc s2 none fa.loc 8 (w.getD 1 0).toNat).retireX d 0)
        ∧ (∀ c g e, c ∈ s2.cores → dieOfCore c.1 = die → g ∈ pages → e ∈ c.2.tlb → ¬ (e.pte.getLsbD 10 = true ∧ pteBase e.pte = g.pa))))

/-! ### Meets -/

/-- R159 to R168: an arrival at a table (here of a launch that is not deterministic) looks at the four ways of its set for an open entry of its
hash. One with its key takes it in: the multiplicities add, the least WID, the flags and the counts are merged, and the
thread ends, its leaf losing one with its cycle (R170, R298). With none of its hash the lowest free way holds a new entry of it and it waits; a TIMED one that finds its key
departed, and one whose four ways are taken, goes on alone with status 4 or 8. A COUNTED arrival adds its MULT to its
instance; a seventeenth instance goes on alone, and one that reaches its target ends its instance, whose entries all depart. -/
def Obligations.MeetsMergeEqualArrivals : Prop :=
  ∀ (s : State) (th : Thread) (d a b : Reg) (n : Nat) (tab : Table), s.current = some th → th.wait = none → rising s.threads →
    tableBank s th (th.getX a) = .ok n → tableOf s n = some tab →
    (∀ l, s.launches.find th.lctx.toNat = some l → l.hdr.det = false) →
    let lives := ((List.range 32).filter (fun i => th.live.getLsbD i)).map (fun i => th.getX (BitVec.ofNat 5 i))
    let H : Word := lives.foldl (fun x y => x ^^^ y) 0 ^^^ th.pc ^^^ (BitVec.ofNat 64 (n % 32) <<< 48)
    let first := (H.extractLsb' 0 8 ^^^ H.extractLsb' 8 8).toNat * 4
    let key : MeetKey := { pc := th.pc, lctx := th.lctx, mode := th.mode, live := th.live, vals := lives, frm := th.frm, ftrap := th.ftrap,
                           mxcfg := th.mxcfg, privbase := th.privbase, utvec := th.utvec, cell := th.cell }
    let at_ := fun (w : Nat) => tab.entries.find (first + w)
    let open_ := fun (w : Nat) => ∃ e, at_ w = some e ∧ e.departed = none ∧ e.hash = H
    let alone := fun (i : Instr) (status : Word) =>
      ∃ u, exec i s = .next u ∧ u.thread s.cur = some (((th.clearForMeet.setX d status).retire s.cycle).endWindow)
    let full := (∀ w, w < 4 → ¬ open_ w ∧ ∃ e, at_ w = some e ∧ e.departed = none)
    let joins := fun (i : Instr) (kind : MeetKind) (k : Nat) (insts : List MeetInst) =>
      (∀ w e, w < 4 → at_ w = some e → e.departed = none → e.hash = H → e.key = key → (∀ v, v < w → ¬ open_ v) →
        ∃ u t' e', exec i s = .next u ∧ u.thread s.cur = none ∧ tableOf u n = some t' ∧ t'.entries = tab.entries.put (first + w) e'
          ∧ t'.insts = insts ∧ e'.mult = e.mult + th.mult.toNat ∧ e'.wid = (if th.wid.toNat < e.wid.toNat then th.wid else e.wid)
          ∧ e'.flags = e.flags ||| th.fflags ∧ e'.merged = true ∧ e'.owner = e.owner ∧ e'.key = e.key ∧ e'.hash = e.hash
          ∧ e'.windowEnd = e.windowEnd ∧ e'.departed = none
          ∧ u.ended = (if th.lctx = 0 then s.ended else s.ended ++ [{ lctx := th.lctx.toNat, wid := th.widself, core := th.core }])
          ∧ (e.counts.length = 4 → ∀ c, c < 4 → e'.counts.getD c 0 = e.counts.getD c 0 + (th.mxcnt.extractLsb' (16 * c) 16).toNat))
      ∧ (∀ w, w < 4 → (∀ v, v < 4 → ¬ open_ v) → at_ w = none → (∀ v, v < w → at_ v ≠ none) →
        (kind = .timed → ∀ v e, v < 4 → at_ v = some e → ¬ (e.hash = H ∧ e.key = key)) →
        ∃ u t' e', exec i s = .next u ∧ waitsIn s u th (.meet d n (first + w)) ∧ tableOf u n = some t'
          ∧ t'.entries = tab.entries.put (first + w) e' ∧ t'.serial = (tab.serial + 1) % 2 ^ 21 ∧ t'.insts = insts
          ∧ e'.hash = H ∧ e'.key = key ∧ e'.kind = kind ∧ e'.mult = th.mult.toNat ∧ e'.wid = th.wid ∧ e'.flags = th.fflags
          ∧ e'.owner = s.cur ∧ e'.windowEnd = s.cycle / 16 + k ∧ e'.departed = none ∧ e'.merged = false
          ∧ ∀ c, c < 4 → e'.counts.getD c 0 = (th.mxcnt.extractLsb' (16 * c) 16).toNat)
      ∧ (full → alone i 8)
    let window := ((th.getX b).extractLsb' 0 16).toNat
    let given := ((th.getX b).extractLsb' 0 32).toNat
    let count := if given = 0 then 1 else given
    let mine := fun (x : MeetInst) => x.pc == th.pc && x.lctx == th.lctx
    joins (.meetT d a b) .timed (if window = 0 then 1 else window) tab.insts
    ∧ (∀ w e, w < 4 → (∀ v, v < 4 → ¬ open_ v) → at_ w = some e → e.departed ≠ none → e.hash = H → e.key = key →
      alone (.meetT d a b) 4)
    ∧ (tab.insts.find? mine = none → tab.insts.length < 16 → th.mult.toNat < count →
      joins (.meetC d a b) .counted count (tab.insts ++ [{ pc := th.pc, lctx := th.lctx, target := count, sum := th.mult.toNat }]))
    ∧ (∀ x, tab.insts.find? mine = some x → x.sum + th.mult.toNat < x.target →
      joins (.meetC d a b) .counted count (tab.insts.map (fun y => if y = x then { y with sum := x.sum + th.mult.toNat } else y)))
    ∧ (tab.insts.find? mine = none → 16 ≤ tab.insts.length → alone (.meetC d a b) 8)
    ∧ ((∃ x, tab.insts.find? mine = some x ∧ x.target ≤ x.sum + th.mult.toNat)
        ∨ (tab.insts.find? mine = none ∧ tab.insts.length < 16 ∧ count ≤ th.mult.toNat) →
      ∃ u t', exec (.meetC d a b) s = .next u ∧ tableOf u n = some t' ∧ t'.insts = tab.insts.filter (fun y => !mine y)
        ∧ (rising tab.entries →
          let ofIt := fun (e : MeetEntry) => e.departed = none ∧ e.kind = .counted ∧ e.key.pc = th.pc ∧ e.key.lctx = th.lctx
          (∀ idx e, t'.entries.find idx = some e → ¬ ofIt e)
          ∧ ∀ idx e, tab.entries.find idx = some e → ofIt e → e.hash ≠ H → OwnerGoesOn s u n idx e false))
    ∧ (∀ r, th.clearForMeet.getX r = if th.live.getLsbD r.toNat then th.getX r else 0)

/-- R161, R165, R168 and R171 to R173: MEET_WINDOW_END departs every TIMED entry whose window has ended: each stays as departed, the record of
each that merged is appended to the table's log in entry-index order (log 55), and each owner that waits goes on as R168 says.
MEET_ENTRY_FREE frees an entry 256 rotations after its departure. MCLR departs every open entry with the cut bit, empties
the table and writes how many were open; MLOG binds a log to a SCRATCH bank, or unbinds it with 0, and writes the old log's
count and lost bit; MLIVE exchanges the live mask. A table's entries stay in index order. -/
def Obligations.MeetTablesDepartClearAndLog : Prop :=
  ∀ (s : State) (n : Nat),
    (tableOf s n = none → exec (.meetWindowEnd n) s = .next s ∧ exec (.meetEntryFree n) s = .next s) ∧
    ∀ tab : Table, tableOf s n = some tab → rising tab.entries →
    let unmoved := fun (u : State) (sel : MeetEntry → Bool) => ∀ t th, s.thread t = some th →
      (∀ p ∈ tab.entries, sel p.2 = true → p.2.owner = t → th.wait ≠ some (.meet p.2.d n p.1)) → u.thread t = some th
    (let sel := fun (e : MeetEntry) => e.departed.isNone && e.kind == .timed && decide (e.windowEnd ≤ s.cycle / 16)
      let gone := tab.entries.filter (fun p => sel p.2)
      ∃ u, exec (.meetWindowEnd n) s = .next u
        ∧ tableOf u n = some { tab with
            entries := tab.entries.map (fun p => if sel p.2 then (p.1, { p.2 with departed := some s.cycle }) else p),
            log := logAfter tab.log (gone.countP (fun p => p.2.merged)) }
        ∧ DeparturesLogged s u tab.log gone ∧ (∀ p ∈ gone, OwnerGoesOn s u n p.1 p.2 false) ∧ unmoved u sel)
    ∧ (let left := tab.entries.filter (fun e => match e.2.departed with
        | some c => decide (s.cycle / 16 < c / 16 + 256)
        | none => true)
      rising left ∧ ∃ u, exec (.meetEntryFree n) s = .next u ∧ u.threads = s.threads ∧ u.mem = s.mem ∧ u.sram = s.sram
        ∧ tableOf u n = some { tab with entries := left })
    ∧ ∀ (th : Thread) (d a b : Reg), s.current = some th → th.wait = none →
      let X := th.getX a
      (X.extractLsb' 32 32 = 0 → X.getLsbD 0 = false → (List.range 32).countP (fun i => X.getLsbD i) ≤ 8 →
        exec (.mlive d a) s = ends s ({ th with live := X.extractLsb' 0 32 }.setX d (th.live.zeroExtend 64)))
      ∧ (X.extractLsb' 32 32 ≠ 0 ∨ X.getLsbD 0 = true ∨ 8 < (List.range 32).countP (fun i => X.getLsbD i) →
        exec (.mlive d a) s = .next (s.takeTrap s.cur { cause := .meetLiveMask, val := X }))
      ∧ (tableBank s th X = .ok n →
        (let gone := tab.entries.filter (fun p => p.2.departed.isNone)
          ∃ u, exec (.mclr d a) s = .next u
            ∧ tableOf u n = some { tab with entries := [], insts := [], log := logAfter tab.log (gone.countP (fun p => p.2.merged)) }
            ∧ DeparturesLogged s u tab.log gone ∧ (∀ p ∈ gone, OwnerGoesOn s u n p.1 p.2 true)
            ∧ u.thread s.cur = some ((th.setX d (BitVec.ofNat 64 gone.length)).retire s.cycle).endWindow)
        ∧ (let P := th.getX b
          let old : Word := match tab.log with
            | some l => BitVec.ofNat 64 (l.count + (if l.lost then 2 ^ 63 else 0))
            | none => 0
          let lb := clusterOfCore th.core * 32 + (P.extractLsb' 17 5).toNat
          let binds := fun (log : Option MeetLog) =>
            exec (.mlog d a b) s = ends (s.putBank n { s.bank n with mode := .meet { tab with log := log } }) (th.setX d old)
          (P = 0 → binds none)
          ∧ (P ≠ 0 → (P.extractLsb' 57 7 ≠ 8 ∨ P.extractLsb' 22 35 ≠ 0 ∨ P.extractLsb' 0 4 ≠ 0) →
            exec (.mlog d a b) s = .next (s.takeTrap s.cur { cause := .spaceInvalid, val := P }))
          ∧ (P ≠ 0 → P.extractLsb' 57 7 = 8 → P.extractLsb' 22 35 = 0 → P.extractLsb' 0 4 = 0 → (s.bank lb).changes = [] →
            ((s.bank lb).mode = .scratch →
              binds (some { start := lb * 2 ^ 17 + (P.extractLsb' 0 17).toNat, count := 0, lost := false }))
            ∧ ((s.bank lb).mode ≠ .scratch →
              exec (.mlog d a b) s = .next (s.takeTrap s.cur { cause := .bankModeMismatch, val := P })))))

/-! ### Tasks and launches -/

/-- R278, R281, R282 and R288 to R292: SPAWN pushes a valid task record on its own core's deque and SPAWNX on the core that X[b] names, each after
it has charged the leaf of the record's WID; the entry's multiplicity is MULT times the record's field, 0 counting as 1.
CONT adds X[b] [31:0] to the record's join count and writes the new count to X[d]; at 0 it pushes the record. RETIRE ends
its thread, after a CONT of −1 when X[a] is not 0, and its leaf loses one once the cycle's issues are over, so that every push of the
cycle is charged first (R298). A record that is not valid and a count above 2^31 − 1
trap TASK_RECORD_INVALID and a negative count JOIN_UNDERFLOW; a read that fails traps. A deque holds 64 records, and with
its spill region 1,088: the push onto 64 or more writes the copy of the 64th into a free place of the region, in the form of R288, and the copy
reads back as what was pushed (log 56 gives the places and what a copy does not hold). -/
def Obligations.TasksArePushedJoinedAndRetired : Prop :=
  ∀ (s : State) (th : Thread) (d a b : Reg), Tidy s → s.current = some th →
    let P := th.getX a
    let me := th.core
    let lctx := th.lctx.toNat
    let traps := fun (i : Instr) (c : Cause) (v : Word) => exec i s = .next (s.takeTrap s.cur { cause := c, val := v })
    (∀ tr, readRecord s (cxOf s th) th.place.handle P = .error (some tr) → ∀ i ∈ [Instr.spawn d a, .spawnx d a b, .cont d a b],
      exec i s = .next ((s.holdLeaf tr).takeTrap s.cur tr))
    ∧ (∀ l s1, readRecord s (cxOf s th) th.place.handle P = .ok (l, s1) →
      let w := fun i => l.getD i (0 : Word)
      let field := ((w 5).extractLsb' 0 32).toNat
      let m := th.mult.toNat * (if field = 0 then 1 else field)
      let e := fun (lc k : Nat) => ({ kind := .task, entry := w 0, arg := w 1, x11 := P, wid := w 2, widself := w 2,
                                      prio := ((w 4).extractLsb' 36 4).toNat, mult := k, lctx := lc, record := l } : DequeEntry)
      let pushes := fun (i : Instr) (core : Nat) =>
        (spawnRecordOk l lctx = false → traps i .taskRecordInvalid P)
        ∧ (spawnRecordOk l lctx = true → 2 ^ 32 ≤ m → traps i .meetMultOverflow (BitVec.ofNat 64 m))
        ∧ (spawnRecordOk l lctx = true → m < 2 ^ 32 → ∀ c, chargeAndPush s1 (dieOfCore me) core (e lctx m) = .error c → traps i c P)
        ∧ (spawnRecordOk l lctx = true → m < 2 ^ 32 → ∀ s2, chargeAndPush s1 (dieOfCore me) core (e lctx m) = .ok s2 →
          exec i s = .next (s2.retireX d 0))
      pushes (.spawn d a) me
      ∧ (∀ core, coreOfCsr (th.getX b).toNat = some core → spawnTargetOk s1 th core = true → pushes (.spawnx d a b) core)
      ∧ (spawnRecordOk l lctx = true → (∀ core, coreOfCsr (th.getX b).toNat = some core → spawnTargetOk s1 th core = false) →
        traps (.spawnx d a b) .taskRecordInvalid (th.getX b))
      ∧ (let v := ((th.getX b).extractLsb' 0 32).toInt
        let join := ((w 4).extractLsb' 0 32).toNat
        let c : Int := join + v
        let lc := ((w 5).extractLsb' 32 16).toNat
        (contRecordOk s l = false → traps (.cont d a b) .taskRecordInvalid P)
        ∧ (contRecordOk s l = true → v = 0 → 2 ^ 31 ≤ join → traps (.cont d a b) .taskRecordInvalid P)
        ∧ (contRecordOk s l = true → v = 0 → join < 2 ^ 31 → exec (.cont d a b) s = .next (s1.retireX d (BitVec.ofNat 64 join)))
        ∧ (∀ tr, contRecordOk s l = true → v ≠ 0 →
          checkAccess s1 (cxOf s th) th.place.handle .store .scalar false (P + 32) 4 4 = .error (some tr) →
          exec (.cont d a b) s = .next ((s.holdLeaf tr).takeTrap s.cur tr))
        ∧ (∀ acc pa, contRecordOk s l = true → v ≠ 0 → acc.loc = .dram pa → lineHeld s1 acc.loc 4 = false →
          checkAccess s1 (cxOf s th) th.place.handle .store .scalar false (P + 32) 4 4 = .ok acc →
          let s2 := (touchAcc s1 (some me) .store acc).storePa none pa 4 c.toNat
          (c < 0 → traps (.cont d a b) .joinUnderflow P)
          ∧ (2 ^ 31 ≤ c → traps (.cont d a b) .taskRecordInvalid P)
          ∧ (0 < c → c < 2 ^ 31 → exec (.cont d a b) s = .next (s2.retireX d (BitVec.ofInt 64 c)))
          ∧ (c = 0 →
            let r := chargeAndPush s2 (dieOfCore me) me { e (if lc = 0 then lctx else lc) (if field = 0 then 1 else field) with
              record := l.set 4 (w 4 &&& 0xFFFFFFFF00000000) }
            (∀ s3, r = .ok s3 → exec (.cont d a b) s = .next (s3.retireX d 0)) ∧ ∀ q, r = .error q → traps (.cont d a b) q P))))
    ∧ (let loses := fun (u : State) (x : Thread) =>
        if x.lctx = 0 then u else { u with ended := u.ended ++ [{ lctx := x.lctx.toNat, wid := x.widself, core := x.core }] }
      (P = 0 → exec (.retire a) s = .next (loses (s.removeThread s.cur) th))
      ∧ (∀ s1 c th1, P ≠ 0 → contOp s (contBy s th) P (-1) = .ok (s1, c) → s1.thread s1.cur = some th1 →
        exec (.retire a) s = .next (loses (s1.removeThread s1.cur) th1)))
    ∧ (s.agenda = [] → s.phase = 1 → s.ended ≠ [] →
      step s = .next (s.ended.foldl (fun st x => uncharge st x.lctx x.wid x.core) { s with ended := [] }))
    ∧ (∀ tr, P ≠ 0 → contOp s (contBy s th) P (-1) = .error (some tr) → exec (.retire a) s = .next ((s.holdLeaf tr).takeTrap s.cur tr))
    ∧ (∀ (core : Nat) (e : DequeEntry),
      let old := (s.core core).deque
      let room := if (s.core core).deqspill = 0 then 64 else 1088
      let base := (s.core core).deqspill.toNat
      let others := fun (u : State) => u.threads = s.threads ∧ u.launches = s.launches ∧ u.sram = s.sram ∧ (∀ c, c ≠ core → u.core c = s.core c)
      (room ≤ old.length → pushDeque s core e = .error .dequeSpillFull)
      ∧ (old.length < 64 → (∀ x ∈ e :: old, x.spill = none) →
        ∃ u, pushDeque s core e = .ok u ∧ (u.core core).deque = e :: old ∧ others u ∧ u.mem = s.mem)
      ∧ (∀ bottom last top, 64 ≤ old.length → old.length < room → old = bottom ++ last :: top → bottom.length = 63 →
        e.spill = none → last.spill = none → (∀ x ∈ bottom, x.spill = none) → (∀ x ∈ top, x.spill ≠ none) →
        base + 65536 ≤ 0x3000000000 → s.late = [] → ownedAt s true base 65536 = false →
        ∃ u k, pushDeque s core e = .ok u ∧ k < 1024 ∧ others u
          ∧ (let a := base + 64 * k
            (∀ x ∈ old, x.spill ≠ some a) ∧ (u.core core).deque = e :: (bottom ++ { last with spill := some a } :: top)
            ∧ (∀ i, i < 8 → u.mem.readLE (a + 8 * i) 8 = (last.words.getD i 0).toNat)
            ∧ ∀ x, (x < a ∨ a + 64 ≤ x) → u.mem.read x = s.mem.read x)))
    ∧ (∀ x : DequeEntry, x.prio < 16 → x.mult < 2 ^ 32 → x.lctx < 2 ^ 16 →
      let y := x.ofWords x.words
      x.words.length = 8 ∧ x.words.getD 0 0 = x.entry ∧ x.words.getD 1 0 = x.arg
      ∧ (y.entry = x.entry ∧ y.arg = x.arg ∧ y.x11 = x.x11 ∧ y.prio = x.prio ∧ y.mult = x.mult ∧ y.lctx = x.lctx ∧ y.spill = none)
      ∧ (x.kind = .task → y.kind = .task ∧ y.wid = x.wid ∧ y.widself = x.wid)
      ∧ (∀ lo hi, x.kind = .range lo hi → lo < 2 ^ 64 → hi < 2 ^ 64 → y.kind = .range lo hi))
    ∧ (∀ (n die k : Nat) (wid : Word) (l : Launch), n ≠ 0 → s.launches.find n = some l → indexOfWid l.hdr wid = some k → l.closed.contains k = false →
      (∀ x die', l.leaves.find k = some (x, die') →
        charge s n wid die = .ok (s.putLaunch n { l with leaves := l.leaves.put k (x + 1, die') })
        ∧ (2 ≤ x → uncharge s n wid me = s.putLaunch n { l with leaves := l.leaves.put k (x - 1, die') })
        ∧ (x ≤ 1 → l.hdr.events = 0 → l.hdr.replay = false →
          uncharge s n wid me = s.putLaunch n { l with
            leaves := l.leaves.drop k, closed := k :: l.closed,
            done := l.done || decide (l.closed.length + 1 = l.total), lastCore := if l.closed.length + 1 = l.total then me else l.lastCore }))
      ∧ (l.leaves.find k = none → nodeTableUsed s die < 16384 →
        charge s n wid die = .ok (s.putLaunch n { l with leaves := l.leaves.put k (2, die) })))

/-- R275, R276, R279, R280, R293 and R294: LAUNCH of a header that passes its checks takes the lowest free context number, writes it to X[d] and
pushes the whole index space as one range on the deque of the issuer's core, or, where its die is not in the diemask, of
core 0 of the lowest cluster of its partition on the lowest die in it; a replayable header enters the journal; a launch of no
index completes at once, when no copy engine holds a line that this needs (log 21); with no number free X[d] is 0. A header
that fails a check traps LAUNCH_HEADER_INVALID and a read that fails its cause (log 63); a full deque traps DEQUE_SPILL_FULL with the header as EVAL
(log 19). Clusters that have been retired are of no partition (log 76). YIELD waits for the next rotation boundary,
where it goes on with 1 when no other work is ready. LAUNCH_COMPLETION of a finished launch posts its root event, makes its
dependant's CONT of −1 and removes it; the launch of a fault stays until it has been run again. A dependant is read as the thread of the
LAUNCH would (log 61).

R22, R280, R310 and R311: before that the launch's staged operations are applied one after the other in the order of their keys, the work
identifier and then the sequence number, equal keys by their place; each as its atomic or merge would be, but one at data that ECC cannot
correct, which is dropped and logged. -/
def Obligations.LaunchesStartAndComplete : Prop :=
  ∀ (s : State) (th : Thread) (d a : Reg), Tidy s → s.current = some th →
    let P := th.getX a
    let part := (s.cluster (clusterOfCore th.core)).partId
    let ours := fun cl => (s.cluster cl).partId = part ∧ (s.cluster cl).retired = false
    let good := ∃ sp, spaceOf (cxOf s th) (clusterOfCore th.core) .load false P = .ok sp
    let traps := fun (c : Cause) => exec (.launch d a) s = .next (s.takeTrap s.cur { cause := c, val := P })
    (good → P.toNat % 128 ≠ 0 → traps .loadMisaligned)
    ∧ (∀ tr, good → P.toNat % 128 = 0 → loadWords s (cxOf s th) th.place.handle P 16 = .error (some tr) →
      exec (.launch d a) s = .next ((s.holdLeaf tr).takeTrap s.cur tr))
    ∧ (∀ ws s1, good → P.toNat % 128 = 0 → loadWords s (cxOf s th) th.place.handle P 16 = .ok (ws, s1) →
      ((∀ h, ¬ HeaderHolds s part (fun i => ws.getD i 0) h) → traps .launchHeaderInvalid)
      ∧ (∀ h, HeaderHolds s part (fun i => ws.getD i 0) h →
        let total := h.extents.foldl (fun x y => x * y) 1
        let l : Launch := { hdr := h, x11 := P, csrs := s.csrsOf th, issuer := th.lctx.toNat, core := th.core, total := total, leaves := [],
                            closed := [], lastCore := th.core, done := false, budget := 0, area := 0, staged := [], events := [] }
        let e := fun n => ({ kind := .range 0 total, entry := h.entry, arg := h.arg, x11 := P, wid := 0, widself := 0, prio := 0, mult := 1,
                             lctx := n } : DequeEntry)
        ((∀ n, 1 ≤ n → n ≤ 4095 → s1.launches.find n ≠ none) → exec (.launch d a) s = .next (s1.retireX d 0))
        ∧ (∀ n, 1 ≤ n → n ≤ 4095 → s1.launches.find n = none → (∀ m, 1 ≤ m → m < n → s1.launches.find m ≠ none) →
          let s2 := s1.putLaunch n l
          let s3 := if h.replay then { s2 with helben := { s2.helben with journal := s2.helben.journal ++
              [{ lctx := n, phase := 0, launch := l, copies := journalDies s2 }] } } else s2
          (total = 0 → completionHeld s3 l = false →
            exec (.launch d a) s = .next ((completeLaunch s3 n th.core).retireX d (BitVec.ofNat 64 n)))
          ∧ (total = 0 → completionHeld s3 l = true → exec (.launch d a) s = .next s)
          ∧ (∀ core, total ≠ 0 → (h.diemask.getLsbD (dieOfCore th.core) = true → core = th.core) →
            (h.diemask.getLsbD (dieOfCore th.core) = false → ∃ die cl, die < 4 ∧ cl < 36 ∧ core = (die * 36 + cl) * 32
              ∧ h.diemask.getLsbD die = true ∧ ours (die * 36 + cl)
              ∧ (∀ x y, x < die → y < 36 → h.diemask.getLsbD x = true → ¬ ours (x * 36 + y))
              ∧ ∀ y, y < cl → ¬ ours (die * 36 + y)) →
            (∀ s4, pushDeque s3 core (e n) = .ok s4 → exec (.launch d a) s = .next (s4.retireX d (BitVec.ofNat 64 n)))
            ∧ ∀ c, pushDeque s3 core (e n) = .error c → traps c))))
    ∧ (s.helben.dead = [] → journalDies s = [1, 3])
    ∧ exec (.yield d) s = .next (s.putThread s.cur { th with wait := some (.yield d), entered := .no, window := none })
    ∧ (th.wait = some (.yield d) → hasReserved s th.core = false → (∀ x ∈ (s.core th.core).served, hasWork s th.core x.lctx = false) →
      resolveYield s th.core s.cur = s.putThread s.cur ((th.setX d 1).retire s.cycle))
    ∧ (∀ (n : Nat), (∀ l, s.launches.find n = some l → l.done = false ∨ (∃ j ∈ s.helben.journal, j.lctx = n ∧ j.phase = 1)
        ∨ completionHeld s l = true) → exec (.launchCompletion n) s = .next s)
    ∧ (∀ (n : Nat) (l : Launch), s.launches.find n = some l → l.done = true → l.hdr.dep0 = 0 → l.hdr.dep1 = 0 → l.hdr.events % 2 = 0 →
      l.events = [] → (∀ j ∈ s.helben.journal, j.lctx ≠ n) → completionHeld s l = false → (∀ r ∈ l.staged, r.spill = none) →
      let before := fun (x y : Staged) => x.wid.toNat < y.wid.toNat
        ∨ x.wid = y.wid ∧ (x.seqno < y.seqno ∨ x.seqno = y.seqno ∧ x.pa < y.pa)
      ∃ (order : List Staged) (u : State), order.Perm l.staged ∧ order.Pairwise (fun x y => ¬ before y x) ∧ u = order.foldl applyStaged s
        ∧ exec (.launchCompletion n) s = .next { u with
            launches := u.launches.drop n,
            helben := { u.helben with journal := u.helben.journal.filter (fun j => j.lctx != n) } })
    ∧ (∀ (q : AtomReq) (pa : Nat), q.loc = .dram pa → q.op < 15 → q.size = 4 ∨ q.size = 8 →
      (s.isBad pa q.size = false → applyStaged s (stagedOfAtom q) = (performAtom s pa q).1)
      ∧ (s.isBad pa q.size = true → applyStaged s (stagedOfAtom q)
        = (s.logEvent .stagingUncorrectable 0 q.wid (BitVec.ofNat 64 q.seqno)).logEvent .stagingUncorrectable 0 (BitVec.ofNat 64 pa) 0))
    ∧ (∀ q : SmergeReq, (∀ b ∈ q.blocks, s.isBad b 64 = false) →
      applyStaged s (stagedOfSmerge q) = performSmerge s q.blocks q.m.toNat q.l.toNat (q.o.map (fun x => x.toNat)) q.mult q.frm)
    ∧ (∀ (n : Nat) (l : Launch), s.launches.find n = some l → l.done = true → l.hdr.dep1 = 0 → l.staged = [] → l.events = [] →
      (∀ j ∈ s.helben.journal, j.lctx ≠ n) →
      (l.hdr.events % 2 = 0 → l.hdr.dep0 = 0 → exec (.launchCompletion n) s = .next { s with launches := s.launches.drop n })
      ∧ (∀ s1 c, l.hdr.events % 2 = 0 → l.hdr.dep0 ≠ 0 →
        contOp s { cx := launchCx l (dieOfCore l.core), handle := handleOf l.core 0, core := l.lastCore, lctx := l.issuer } l.hdr.dep0 (-1) = .ok (s1, c) →
        exec (.launchCompletion n) s = .next { s1 with launches := s1.launches.drop n })
      ∧ (l.hdr.events % 2 = 1 → l.hdr.dep0 = 0 → l.hdr.target.getLsbD 63 = false → (l.hdr.target.extractLsb' 9 6).toNat < 36 →
        let core := coreOfHandle (l.hdr.target.extractLsb' 0 17).toNat
        (s.core core).mailbox.length < 32 → (s.core core).held = [] →
        ∃ u v, exec (.launchCompletion n) s = .next u ∧ u = { v with launches := v.launches.drop n }
          ∧ Delivered s v core { slot := slotOfHandle (l.hdr.target.extractLsb' 0 17).toNat, m0 := BitVec.ofNat 64 n, m1 := 0, copyOf := none }))

/-! ### Mailboxes, barriers and channels -/

/-- R263 to R265, R133, R258 and R272: SEND and SENDT to a live slot put (X[b], X[b+1]) in its core's mailbox of 32 and write 0; a full one makes SEND
wait and SENDT write 1; a handle of no live slot traps MAILBOX_INVALID. RECV takes the oldest entry of its slot to X[d],
X[d+1] and else waits, and a waiting SEND takes the entry that is free then, of several the one with the lowest handle, which
is the model's choice (log 70); WAITM writes how many there are, at once or within its limit; PEEKM writes it at once. A
message ends the wait of a RECV or WAITM, and a WFI's with reason 0; a held posting is enqueued once an entry is free,
before a waiting SEND (log 33), and then its issuer has one request less outstanding (log 59). A WFI completes at the end of
a cycle with the lowest of the reasons that reached it in that cycle (log 47): 0, 1 for the doorbell, which it clears, 2 for
Helben's notification, and 3 at its limit. What a waiter gets in the step that ends its wait is log 22. -/
def Obligations.MailboxesCarryMessagesInOrder : Prop :=
  ∀ (s : State) (th : Thread) (d a b : Reg), s.current = some th → rising s.threads →
    let h := th.getX a
    let me := th.place.handle
    let target := coreOfHandle h.toNat
    let live := h.toNat < 2 ^ 17 ∧ h.toNat / 512 % 64 < 36 ∧ (s.core target).retired = false
      ∧ (s.cluster (clusterOfCore target)).retired = false
    let sends := [Instr.send d a b, .sendt d a b]
    let n := ((s.core th.core).mailbox.filter (fun m => m.slot == slotOfHandle me)).length
    let nobody := ∀ p ∈ s.threads, ∀ k, ¬ AwaitsMail p.2 k
    (¬ live → ∀ i ∈ sends, exec i s = .next (s.takeTrap s.cur { cause := .mailboxInvalid, val := h }))
    ∧ (live → b ≠ 31 → (s.core target).mailbox.length < 32 → ∀ i ∈ sends,
      ∃ u, exec i s = .next u ∧ Delivered (s.putThread s.cur ((th.setX d 0).retire s.cycle).endWindow) u target
        { slot := slotOfHandle h.toNat, m0 := th.getX b, m1 := th.getX (b + 1), copyOf := none })
    ∧ (live → b ≠ 31 → 32 ≤ (s.core target).mailbox.length → exec (.sendt d a b) s = ends s (th.setX d 1)
      ∧ exec (.send d a b) s = .next (s.putThread s.cur
          { th with wait := some (.send h.toNat (th.getX b) (th.getX (b + 1)) d), entered := .no, window := none }))
    ∧ exec (.peekm d) s = ends s (th.setX d (BitVec.ofNat 64 n))
    ∧ (n ≠ 0 → exec (.waitm d a) s = ends s (th.setX d (BitVec.ofNat 64 n)))
    ∧ (n = 0 → (∃ u, exec (.waitm d a) s = .next u
        ∧ waitsIn s u th (.waitm d (if h = 0 then none else some (s.cycle + h.toNat))))
      ∧ ∃ u, exec (.recv d) s = .next u ∧ waitsIn s u th (.recv d))
    ∧ (∀ before m after, (s.core th.core).mailbox = before ++ m :: after → m.slot = slotOfHandle me →
      (∀ x ∈ before, x.slot ≠ slotOfHandle me) →
      let got := (((th.setX d m.m0).setX (d + 1) m.m1).retire s.cycle).endWindow
      ((∀ p ∈ s.threads, p.1 ≠ s.cur → ∀ x y z w, p.2.wait ≠ some (.send x y z w)) →
        exec (.recv d) s = .next ((s.putCore th.core { s.core th.core with mailbox := before ++ after }).putThread s.cur got))
      ∧ (∀ t x k v0 v1 r, nobody → (s.core th.core).mailbox.length = 32 → s.thread t = some x → t ≠ s.cur →
        x.wait = some (.send k v0 v1 r) → coreOfHandle k = th.core →
        (∀ p ∈ s.threads, p.1 ≠ t → ∀ g y z w, p.2.wait = some (.send g y z w) → x.place.handle < p.2.place.handle) →
        ∃ u, exec (.recv d) s = .next u ∧ u.thread s.cur = some got ∧ u.thread t = some (resumed s x (x.setX r 0) 0)
          ∧ (u.core th.core).mailbox = before ++ after ++ [{ slot := slotOfHandle k, m0 := v0, m1 := v1, copyOf := none }]))
    ∧ (∀ core, ((s.core core).held = [] ∨ 32 ≤ (s.core core).mailbox.length → exec (.heldMailboxPosting core) s = .next s)
      ∧ ∀ m rest, (s.core core).held = m :: rest → (s.core core).mailbox.length < 32 →
        let s1 := s.putCore core { s.core core with held := rest }
        ∃ u, exec (.heldMailboxPosting core) s = .next u ∧ (core < 4608 → m.slot < 16 →
          ((∀ c x, m.copyOf = some c → c.last = true → s.thread c.tid ≠ some x) → Delivered s1 u core m)
          ∧ ∀ c x, m.copyOf = some c → c.last = true → s.thread c.tid = some x →
            Delivered (s1.putThread c.tid { x with copies := x.copies - 1 }) u core m))
    ∧ (∀ t x k l, s.thread t = some x → x.place = .slot k →
      (x.wait = some (.waitm d (some l)) → l ≤ s.cycle →
        exec (.waitmTimeout t) s = .next (s.putThread t (resumed s x (x.setX d 0) 2)))
      ∧ (x.wait = some (.wfi d (some l) []) → l ≤ s.cycle →
        exec (.wfiTimeout t) s = .next (s.putThread t (resumed s x (x.setX d 3) 0)))
      ∧ (∀ e r, x.wait = some (.wfi d e r) → s.inSlot k = some (t, x) →
        exec (.helbenNotification k) s = .next (s.putThread t { x with wait := some (.wfi d e (2 :: r)) })))
    ∧ (∀ t x k e r c, s.thread t = some x → x.place = .slot k → x.wait = some (.wfi d e r) →
      let bell := (s.cluster (clusterOfCore x.core)).doorbell = true
      (c ∈ r ∨ c = 1 ∧ bell) → (∀ y ∈ r, c ≤ y) → (bell → c ≤ 1) →
      (endWfis s).thread t = some (resumed s x (x.setX d (BitVec.ofNat 64 c)) 0)
        ∧ (c = 1 → ((endWfis s).cluster (clusterOfCore x.core)).doorbell = false))

/-- R266 to R269: BARA and BAR add MULT to the arrived count and the flags that C selects to the merged ones, and trap BARRIER_MISUSE beyond N or
when N is 0; BARA goes on with the parity in bit 5 and BAR waits for the phase; BARW goes on with the last flags once the
parity has turned. BARCFG in supervisor mode sets an idle barrier and writes its old N. A phase with N arrivals and no
byte pending ends with its cycle: the parity turns, the counts start again, each waiter goes on with the flags, of which the
contributor with the least WID takes BARRIER_FP_COLLECTED if there are any, and the BAREX amounts of the cycle are added
after it (log 35). That BARCFG leaves the last flags as they were is log 34, and what a waiter gets in the step that ends its
wait log 22. -/
def Obligations.BarriersCountTheirPhases : Prop :=
  ∀ (s : State) (th : Thread) (d a b : Reg), s.current = some th → rising s.threads →
    let id := ((th.getX a).extractLsb' 0 4).toNat
    let cl := clusterOfCore th.core
    let br := s.barrier cl id
    let k := th.mult.toNat
    let misuse := fun (i : Instr) => exec i s = .next (s.takeTrap s.cur { cause := .barrierMisuse, val := BitVec.ofNat 64 id })
    let word := fun (q : Bool) (f : BitVec 5) => ((if q then 32 else 0) ||| f.zeroExtend 64 : Word)
    let arrived : Barrier := { br with
      arrived := br.arrived + k, flags := br.flags ||| (th.fflags &&& br.c),
      lowest := if th.fflags &&& br.c = 0 then br.lowest else match br.lowest with
        | none => some (th.wid, th.place.handle, s.cur)
        | some y => if th.wid.toNat < y.1.toNat ∨ (th.wid = y.1 ∧ th.place.handle < y.2.1) then some (th.wid, th.place.handle, s.cur) else some y }
    (br.n = 0 → ∀ i ∈ [Instr.bara d a, .barw d a b, .bar d a, .barex d a b], misuse i)
    ∧ (br.n ≠ 0 → br.n < br.arrived + k → misuse (.bara d a) ∧ misuse (.bar d a))
    ∧ (br.n ≠ 0 → br.arrived + k ≤ br.n →
      exec (.bara d a) s = ends (s.putBarrier cl id arrived) (th.setX d (word br.parity 0))
      ∧ ∃ u, exec (.bar d a) s = .next u ∧ waitsIn s u th (.barw d cl id br.parity) ∧ u.barrier cl id = arrived)
    ∧ (br.n ≠ 0 → (th.getX b).getLsbD 0 ≠ br.parity → exec (.barw d a b) s = ends s (th.setX d (word (th.getX b |>.getLsbD 0) br.last)))
    ∧ (br.n ≠ 0 → (th.getX b).getLsbD 0 = br.parity → ∃ u, exec (.barw d a b) s = .next u ∧ waitsIn s u th (.barw d cl id br.parity))
    ∧ (br.n ≠ 0 → exec (.barex d a b) s = .next (s.putThread s.cur
        { th with wait := some (.barex d cl id ((th.getX b).extractLsb' 0 32).toNat), entered := .no, window := none }))
    ∧ (let va := th.getX a
      let vb := th.getX b
      let e0 := (va.extractLsb' 32 32).toNat
      let clean := va.extractLsb' 4 28 = 0 ∧ vb.extractLsb' 37 27 = 0
      let idle := br.arrived = 0 ∧ br.pending = br.e0 ∧ ∀ p ∈ s.threads, waitsOnBarrier p.2 cl id = false
      (th.mode = .user → exec (.barcfg d a b) s = .next (s.takeTrap s.cur { cause := .privileged, val := th.pc }))
      ∧ (th.mode = .supervisor → ¬ clean → exec (.barcfg d a b) s = .next (s.takeTrap s.cur { cause := .reservedField, val := th.pc }))
      ∧ (th.mode = .supervisor → clean → ¬ idle → misuse (.barcfg d a b))
      ∧ (th.mode = .supervisor → clean → idle → exec (.barcfg d a b) s = ends (s.putBarrier cl id
          { n := (vb.extractLsb' 0 32).toNat, e0 := e0, c := vb.extractLsb' 32 5, parity := false, arrived := 0, pending := e0, flags := 0,
            lowest := none, last := br.last }) (th.setX d (BitVec.ofNat 64 br.n))))
    ∧ (∀ c j, let x := s.barrier c j
      (∀ p ∈ s.threads, ∀ r n, p.2.wait ≠ some (.barex r c j n)) →
      ((x.n = 0 ∨ x.arrived ≠ x.n ∨ x.pending ≠ 0) → exec (.barrierPhaseComplete c j) s = .next s)
      ∧ (x.n ≠ 0 → x.arrived = x.n → x.pending = 0 →
        ∃ u, exec (.barrierPhaseComplete c j) s = .next u
          ∧ u.barrier c j = { x with last := x.flags, arrived := 0, flags := 0, lowest := none, pending := x.e0, parity := !x.parity }
          ∧ ∀ t y h r, s.thread t = some y → y.place = .slot h → y.wait = some (.barw r c j x.parity) →
            let collects := x.flags ≠ 0 ∧ ∃ w k, x.lowest = some (w, k, t)
            ∃ z, u.thread t = some z ∧ z.wait = none ∧ z.fflags = y.fflags ||| x.flags
              ∧ z.flagorg = (if y.fflags = 0 ∧ x.flags ≠ 0 then y.pc else y.flagorg)
              ∧ (∀ q, q ≠ 0 → z.getX q = if q = r then word x.parity x.flags else y.getX q)
              ∧ (¬ collects → z.instret = y.instret + 1 ∧ z.pc = y.redo.getD (y.pc + 4) ∧ z.pending = y.pending)
              ∧ (collects → z.instret = y.instret ∧ z.pc = y.pc
                ∧ z.pending = y.pending ++ [{ cause := .barrierFpCollected, val := z.flagorg }])))
    ∧ (∀ c j t y r n h, s.threads = [(t, y)] → y.place = .slot h → y.wait = some (.barex r c j n) → (s.barrier c j).arrived ≠ (s.barrier c j).n →
      let x := s.barrier c j
      exec (.barrierPhaseComplete c j) s = .next ((s.putBarrier c j { x with pending := x.pending + n }).putThread t
        (resumed s y (y.setX r (word x.parity 0)) 0)))

/-- R14, R15, R249, R252, R270 and R271: QRES takes the writer's next FREE stage as RESERVED and QACQ the reader's next PUBLISHED one as ACQUIRED, each
writes the stage's pointer to X[d] and binds its end, or waits; QPUB publishes the reserved stage and QREL frees the acquired
one, and a waiter of the other end goes on with it. Anyone else's, or a second stage, traps CHANNEL_MISUSE. BANKCFG asks for a mode: a word outside R249 traps
RESERVED_FIELD and a bank that the launch does not hold BANK_MODE_MISMATCH in user mode. BANK_MODE_CHANGE of an idle bank
zeroes its bytes and enters the mode, and the thread goes on with the old word. That a stage's pointer keeps the window of the program's
is log 20, which pointers trap first log 34, that a waiter of the other end goes on in the same step logs 33 and 22, and that a
user-mode thread of context 0 holds no bank log 78. -/
def Obligations.ChannelsAndBankModesChange : Prop :=
  ∀ (s : State) (th : Thread) (d a b : Reg), s.current = some th → rising s.threads →
    let P := th.getX a
    let me := s.cur
    let misuse := fun (i : Instr) => exec i s = .next (s.takeTrap s.cur { cause := .channelMisuse, val := P })
    let stageOf := fun (q : Word) (c : Channel) (i : Nat) =>
      (0x1000000000000000 ||| (q &&& 0x0E000000003E0000) ||| BitVec.ofNat 64 (i * (64 * 2 ^ c.size)) : Word)
    let stage := stageOf P
    let nobody := ∀ p ∈ s.threads, ∀ r n q, p.2.wait ≠ some (.qres r n q) ∧ p.2.wait ≠ some (.qacq r n q)
    (∀ n c, channelOf s th P = .ok (n, c) →
      let put := fun (c' : Channel) => s.putBank n { s.bank n with mode := .fifo c' }
      let free := c.stages[c.wn]? = some .free
      let full := c.stages[c.rn]? = some .published
      ((c.writer ≠ .unbound ∧ c.writer ≠ .thread me) ∨ c.wheld ≠ none → misuse (.qres d a))
      ∧ ((c.writer = .unbound ∨ c.writer = .thread me) → c.wheld = none →
        (free → exec (.qres d a) s = ends (put { c with writer := .thread me, stages := c.stages.set c.wn .reserved, wheld := some c.wn,
                                                        wn := (c.wn + 1) % c.stages.length }) (th.setX d (stage c c.wn)))
        ∧ (¬ free → ∃ u, exec (.qres d a) s = .next u ∧ waitsIn s u th (.qres d n P) ∧ (u.bank n).mode = .fifo { c with writer := .thread me }))
      ∧ ((c.reader ≠ none ∧ c.reader ≠ some me) ∨ c.rheld ≠ none → misuse (.qacq d a))
      ∧ ((c.reader = none ∨ c.reader = some me) → c.rheld = none →
        (full → exec (.qacq d a) s = ends (put { c with reader := some me, stages := c.stages.set c.rn .acquired, rheld := some c.rn,
                                                        rn := (c.rn + 1) % c.stages.length }) (th.setX d (stage c c.rn)))
        ∧ (¬ full → ∃ u, exec (.qacq d a) s = .next u ∧ waitsIn s u th (.qacq d n P) ∧ (u.bank n).mode = .fifo { c with reader := some me }))
      ∧ ((c.wheld = none ∨ c.writer ≠ .thread me) → misuse (.qpub d a))
      ∧ (∀ i, c.wheld = some i → c.writer = .thread me →
        (nobody → exec (.qpub d a) s = .next ((put { c with stages := c.stages.set i .published, wheld := none }).retireX d 0))
        ∧ (∀ t x r q, c.stages[i]? ≠ none → c.rn = i → s.thread t = some x → t ≠ s.cur → x.wait = some (.qacq r n q) →
          (∀ p ∈ s.threads, p.1 ≠ t → ∀ y z, p.2.wait ≠ some (.qacq y n z)) →
          ∃ u, exec (.qpub d a) s = .next u ∧ u.thread t = some (resumed s x (x.setX r (stageOf q c i)) 5)
            ∧ (u.bank n).mode = .fifo { c with stages := c.stages.set i .acquired, wheld := none, rheld := some i, rn := (i + 1) % c.stages.length }))
      ∧ ((c.rheld = none ∨ c.reader ≠ some me) → misuse (.qrel d a))
      ∧ (∀ i, c.rheld = some i → c.reader = some me →
        (nobody → exec (.qrel d a) s = .next ((put { c with stages := c.stages.set i .free, rheld := none }).retireX d 0))
        ∧ (∀ t x r q, c.stages[i]? ≠ none → c.wn = i → s.thread t = some x → t ≠ s.cur → x.wait = some (.qres r n q) →
          (∀ p ∈ s.threads, p.1 ≠ t → ∀ y z, p.2.wait ≠ some (.qres y n z)) →
          ∃ u, exec (.qrel d a) s = .next u ∧ u.thread t = some (resumed s x (x.setX r (stageOf q c i)) 5)
            ∧ (u.bank n).mode = .fifo { c with stages := c.stages.set i .reserved, rheld := none, wheld := some i, wn := (i + 1) % c.stages.length })))
    ∧ (∀ bk, spaceOf { cxOf s th with mode := .supervisor } (clusterOfCore th.core) .load false P = .ok (.bank (clusterOfCore th.core) bk 0 0) →
      let n := clusterOfCore th.core * 32 + bk
      let w := th.getX b
      let holds := th.mode = .supervisor ∨ ∃ l, s.launches.find th.lctx.toNat = some l ∧ l.hdr.banks.getLsbD bk = true
      let clean := w.extractLsb' 14 50 = 0 ∧ (if w.extractLsb' 0 2 = 2
        then (w.extractLsb' 2 4).toNat ≤ 10 ∧ ((w.extractLsb' 6 6).toNat + 1) * (64 * 2 ^ (w.extractLsb' 2 4).toNat) ≤ 131072
        else w.extractLsb' 2 12 = 0)
      (¬ holds → exec (.bankcfg d a b) s = .next (s.takeTrap s.cur { cause := .bankModeMismatch, val := P }))
      ∧ (holds → ¬ clean → exec (.bankcfg d a b) s = .next (s.takeTrap s.cur { cause := .reservedField, val := th.pc }))
      ∧ (holds → clean → exec (.bankcfg d a b) s
        = .next ((s.putBank n { s.bank n with changes := (s.bank n).changes ++ [{ word := w, tid := s.cur, seq := s.seq }] }).putThread s.cur
            { th with wait := some (.bankcfg d n), entered := .no, window := none })))
    ∧ (∀ n w t k y h, (s.bank n).changes = [{ word := w, tid := t, seq := k }] → ((s.bank n).mode = .cache ∨ (s.bank n).mode = .scratch ∧ w.extractLsb' 0 2 = 1) →
      s.thread t = some y → y.place = .slot h → y.wait = some (.bankcfg d n) → (∀ c ∈ s.clusters, c.2.jobs = []) → s.late = [] →
      (∀ p ∈ s.threads, ∀ x, p.2.head = some x → x.op.usesBank n = false) →
      ∃ u, exec (.bankModeChange n) s = .next u
        ∧ (let m := (u.bank n).mode
          (w.extractLsb' 0 2 = 0 → m = .cache) ∧ (w.extractLsb' 0 2 = 1 → m = .scratch)
          ∧ (w.extractLsb' 0 2 = 2 → m = .fifo
            { size := (w.extractLsb' 2 4).toNat, writer := if w.getLsbD 12 then .copyEngine else .unbound,
              reader := if w.getLsbD 13 then some t else none, stages := List.replicate ((w.extractLsb' 6 6).toNat + 1) .free,
              wn := 0, rn := 0, wheld := none, rheld := none })
          ∧ (w.extractLsb' 0 2 = 3 → m = .meet { entries := [], serial := 0, insts := [], log := none }))
        ∧ (u.bank n).cfg = (if w.extractLsb' 0 2 = 0 then 0 else w) ∧ (u.bank n).changes = []
        ∧ (∀ x, u.sram.read x = if n * 131072 ≤ x ∧ x < (n + 1) * 131072 then 0 else s.sram.read x)
        ∧ u.thread t = some (resumed s y (y.setX d (s.bank n).cfg) 0) ∧ u.mem = s.mem)

/-! ### The copy engine -/

/-- R247, R253 to R261: CPY (its words from X[a], X[a+1], X[b], X[b+1]) and CPYT (from 32 aligned bytes, whose tags it meets as
loads do) enter their core's command FIFO of 16 and wait, with their words read at issue also where the FIFO is full (log 65);
a misaligned CPYT traps LOAD_MISALIGNED. COPY_REQUEST_ACCEPT takes a request that passes its checks, which then owns the lines
of its destination, and its issuer goes on with X[d] = 0; one that fails traps, and none is taken for a retired cluster. A
transfer or iteration moves every byte of its plan, read whole before the first write, to each destination of its multicast
group or to the stages that a FIFO publish writes next, and no other byte changes: LINEAR from X[a] upward, FILL the bytes of
the fill word, a tile each element of its descriptor or the fill value outside the extents. Then its signal is made: none, a
message with the tag, the status and the byte count, a barrier's pending bytes less, or the stages published; a source byte
that faults moves nothing, a destination byte that faults ends the request with the bytes before it written, and either has
status 3 with the address, and COPY_FAULT where the request asks for it. When a request is checked, and what it waits for, is
log 31; how its translations wait is log 23; that a descriptor's strides are unsigned is log 64. -/
def Obligations.CopiesMoveTheirBytes : Prop :=
  ∀ s : State, Tidy s →
    (∀ (th : Thread) (d a b : Reg), s.current = some th →
      let c := s.core th.core
      let P := th.getX a
      let queues := fun (i : Instr) (u : State) (w0 w1 w2 w3 : Word) =>
        let r : CopyReq := { tid := s.cur, home := th.place.handle, fifo := th.core, lctx := th.lctx.toNat, w0 := w0, w1 := w1, w2 := w2,
                             w3 := w3, mode := th.mode, csrs := s.csrsOf th, privbase := th.privbase }
        let waits := fun (v : State) (q : Option CopyReq) =>
          exec i s = .next (v.putThread s.cur { th with wait := some (.copy d q), entered := .no, window := none })
        (c.fifo.length < 16 → waits (u.putCore th.core { u.core th.core with fifo := c.fifo ++ [r] }) none)
        ∧ (16 ≤ c.fifo.length → waits u (some r))
      let held := th.mode = .user ∧ P.extractLsb' 60 4 = 15
      let traps := fun (tr : Trap) => exec (.cpyt d a) s = .next ((s.holdLeaf tr).takeTrap s.cur tr)
      queues (.cpy d a b) s P (th.getX (a + 1)) (th.getX b) (th.getX (b + 1))
      ∧ (held → exec (.cpyt d a) s = .next (s.takeTrap s.cur { cause := .privileged, val := P }))
      ∧ (¬ held → P.toNat % 32 ≠ 0 → exec (.cpyt d a) s = .next (s.takeTrap s.cur { cause := .loadMisaligned, val := P }))
      ∧ (¬ held → P.toNat % 32 = 0 →
        (∀ tr, loadTags s th P 4 = .error (some tr) → traps tr)
        ∧ (∀ s1, loadTags s th P 4 = .ok (some s1) → exec (.cpyt d a) s = .next s1)
        ∧ (loadTags s th P 4 = .ok none →
          (∀ l u, loadWords s (cxOf s th) th.place.handle P 4 = .ok (l, u) → queues (.cpyt d a) u (l.getD 0 0) (l.getD 1 0) (l.getD 2 0) (l.getD 3 0))
          ∧ ∀ tr, loadWords s (cxOf s th) th.place.handle P 4 = .error (some tr) → traps tr)))
    ∧ (∀ (core : Nat) (r : CopyReq) (rest : List CopyReq) (x : Thread) (h : Nat) (d : Reg),
      let cl := clusterOfCore core
      (s.core core).fifo = r :: rest → (∀ o, o ≠ core → clusterOfCore o = cl → (s.core o).fifo = []) →
      s.thread r.tid = some x → x.place = .slot h → x.wait = some (.copy d none) → (∀ p ∈ s.threads, ∀ e q, p.2.wait ≠ some (.copy e (some q))) →
      (s.cluster cl).jobs.length < 64 →
      s.helben.halts.find (s.cluster cl).partId = none →
      ((s.cluster cl).retired = true → exec (.copyRequestAccept cl) s = .next s)
      ∧ ((s.cluster cl).retired = false →
        (∀ desc banks, checkRequest s r = .ok (desc, banks) →
          let bare : CopyJob := { req := r, seq := s.seq, desc := desc, banks := banks, iter := 0, owned := [] }
          ((∃ i, i < r.iterations desc ∧ destWaits s bare i = true) → exec (.copyRequestAccept cl) s = .next s)
          ∧ ((∀ i, i < r.iterations desc → destWaits s bare i = false) →
            ∃ u, exec (.copyRequestAccept cl) s = .next u ∧ (u.core core).fifo = rest ∧ u.mem = s.mem ∧ u.sram = s.sram
              ∧ (u.cluster cl).jobs = (s.cluster cl).jobs ++ [{ bare with owned := ownAll s bare }]
              ∧ u.thread r.tid = some { resumed s x (x.setX d 0) 0 with
                copies := x.copies + (if r.w3.extractLsb' 4 2 = 1 then 1 else 0) }))
        ∧ (∀ tr, checkRequest s r = .error (some tr) →
          ∃ u, exec (.copyRequestAccept cl) s = .next u ∧ (u.core core).fifo = rest ∧ (u.cluster cl).jobs = (s.cluster cl).jobs
            ∧ u.thread r.tid = some { x with wait := none, wake := false, kind := 0, again := false, pending := x.pending ++ [tr] })))
    ∧ (∀ j : CopyJob, let n := j.req.bytes j.desc
      (j.req.w3.extractLsb' 4 2 = 3 → ownAll s j = [])
      ∧ (j.req.w3.extractLsb' 4 2 ≠ 3 → j.req.mask = 0 → j.req.kind ≠ 2 → n ≠ 0 → ∀ a, copyAcc s j .store j.req.w1 = .ok a →
        (∀ key, a.loc = .bank key → ownAll s j = [{ iter := 0, dram := false, start := key, len := n }])
        ∧ ∀ pa, a.loc = .dram pa → pa % 65536 + n ≤ 65536 → ownAll s j = [{ iter := 0, dram := true, start := pa, len := n }]))
    ∧ (∀ (j : CopyJob) (kind : AccessKind) (q : Word),
      let sp := spaceOf j.req.cx j.req.cluster kind false q
      (∀ c b off win, sp = .ok (.bank c b off win) → c * 32 + b ∈ j.banks → watched s (coreOfHandle j.req.home) q 1 = false →
        copyAcc s j kind q = .ok { ptr := q, loc := .bank (bankKey c b off), hit := none, win := 0 })
      ∧ (∀ x y, sp = .ok (.remote x y) → copyAcc s j kind q = .error (some { cause := .spaceInvalid, val := q }))
      ∧ (∀ x, sp = .ok (.global x) →
        copyAcc s j kind q = checkAccess s { j.req.cx with copies := some j.seq } j.req.home kind .scalar false q 1 1))
    ∧ (∀ (cl : Nat) (j : CopyJob) (D : Nat → Nat), (s.cluster cl).jobs = [j] → (∀ p ∈ s.clusters, ∀ x ∈ p.2.jobs, x = j) →
      let r := j.req
      let n := r.bytes j.desc
      let ex : Instr := if r.kind = 2 then .copyLoopIteration cl else .copyTransfer cl
      let publishes := r.w3.extractLsb' 4 2 = 3
      let left : List CopyJob := if r.kind = 2 ∧ j.iter + 1 < (tensorOf j.desc).count
        then [{ j with iter := j.iter + 1, owned := j.owned.filter (fun o => o.iter != j.iter) }] else []
      let last := decide (left = [])
      let from_ := fun (q : Word) => match spaceOf r.cx r.cluster .load false q with
        | .ok (.bank c b off _) => bankKey c b off
        | _ => 0
      let status := if r.kind = 1 ∨ r.kind = 2 then (if ∀ p ∈ j.plan, p.1 = none then 1 else if ∃ p ∈ j.plan, p.1 = none then 2 else 0) else 0
      let same := fun (u : State) => u.mem = s.mem ∧ u.threads = s.threads ∧ u.cores = s.cores ∧ u.launches = s.launches ∧ u.late = s.late
        ∧ (∀ c k, u.barrier c k = s.barrier c k) ∧ ∀ b, (u.bank b).mode = (s.bank b).mode
      let inBanks := fun (q : Word) => ∃ c b off win, spaceOf r.cx r.cluster .load false q = .ok (.bank c b off win) ∧ c * 32 + b ∈ j.banks
      let ready := s.badSram = [] ∧ (∀ q, watched s (coreOfHandle r.home) q 1 = false)
        ∧ (∀ m ∈ j.banks, portBusy s m = false ∧ (s.bank m).engines = []) ∧ ∀ c ∈ s.cores, ∀ m ∈ c.2.held, m.copyOf = none
      r.kind ≤ 3 → (r.kind ≠ 2 → j.iter = 0) → ready →
      ((∀ p ∈ j.plan, ∀ q, p.1 = some q → inBanks q) → j.groupBanks.length = r.group →
        (∀ g, g < r.group →
          (¬ publishes → ∃ c b off win, spaceOf r.cx r.cluster .store false (r.w1 + BitVec.ofNat 64 (g * 131072)) = .ok (.bank c b off win)
            ∧ c * 32 + b ∈ j.banks ∧ off + (j.iter + 1) * n ≤ 131072 ∧ D g = bankKey c b off + j.iter * n)
          ∧ (publishes → ∃ b ch, j.groupBanks[g]? = some b ∧ b / 32 = r.cluster ∧ (s.bank b).mode = .fifo ch ∧ (s.bank b).changes = []
            ∧ ch.stages[ch.wn]? = some .free ∧ n ≤ 64 * 2 ^ ch.size ∧ (ch.wn + 1) * (64 * 2 ^ ch.size) ≤ 131072
            ∧ D g = b * 131072 + ch.wn * (64 * 2 ^ ch.size))) →
        ∃ u0, exec ex s = .next (flushLate (postSignal u0 j last status n 0)) ∧ same u0 ∧ (u0.cluster cl).jobs = left
          ∧ (∀ g, g < r.group → ∀ k p, j.plan[k]? = some p → u0.sram.read (D g + k) = match p.1 with
            | some q => s.sram.read (from_ q)
            | none => p.2)
          ∧ ∀ x : Nat, (∀ g, g < r.group → x < D g ∨ D g + n ≤ x) → u0.sram.read x = s.sram.read x)
      ∧ (j.eligible s cl = true → ∀ (k : Nat) p f, j.plan[k]? = some (some p, f) →
        (∀ (i : Nat) q g, i < k → j.plan[i]? = some (some q, g) → inBanks q) →
        ((∃ tr, copyAcc s j .load p = .error (some tr)) ∨ ∃ a, copyAcc s j .load p = .ok a
          ∧ (locBad s a.loc 1 = true ∨ ∃ pa, a.loc = .dram pa ∧ a.lpage = true ∧ s.tag pa ≠ 0)) →
        ∃ u0, exec ex s = .next (flushLate (postSignal u0 j true 3 0 p)) ∧ same u0 ∧ (u0.cluster cl).jobs = [] ∧ u0.sram = s.sram)
      ∧ (j.eligible s cl = true → ¬ publishes → r.mask = 0 → (∀ p ∈ j.plan, ∀ q, p.1 = some q → inBanks q) → n ≠ 0 →
        let q := r.w1 + BitVec.ofNat 64 (j.iter * n)
        ∀ tr, copyAcc s j .store q = .error (some tr) →
        ∃ u0, exec ex s = .next (flushLate (postSignal u0 j true 3 0 q)) ∧ same u0 ∧ (u0.cluster cl).jobs = [] ∧ u0.sram = s.sram)
      ∧ (j.eligible s cl = true → ¬ publishes → r.mask = 0 → (∀ p ∈ j.plan, ∀ q, p.1 = some q → inBanks q) →
        ∀ (c b off win k : Nat), spaceOf r.cx r.cluster .store false r.w1 = .ok (.bank c b off win) → c * 32 + b ∈ j.banks →
        k < n → off + j.iter * n + k ≤ 131072 →
        let at_ := bankKey c b off + j.iter * n
        let q := r.w1 + BitVec.ofNat 64 (j.iter * n) + BitVec.ofNat 64 k
        (∀ m, ∃ e, copyAcc { s with sram := m } j .store q = .error e) →
        ∃ u0, exec ex s = .next (flushLate (postSignal u0 j true 3 k q)) ∧ same u0 ∧ (u0.cluster cl).jobs = []
          ∧ (∀ i p, i < k → j.plan[i]? = some p → u0.sram.read (at_ + i) = match p.1 with
            | some q => s.sram.read (from_ q)
            | none => p.2)
          ∧ ∀ x : Nat, (x < at_ ∨ at_ + k ≤ x) → u0.sram.read x = s.sram.read x))
    ∧ (s.late = [] → flushLate s = s)
    ∧ (∀ (j : CopyJob) (last : Bool) (status n : Nat) (addr : Word),
      let r := j.req
      let signal := (r.w3.extractLsb' 4 2).toNat
      let core := coreOfHandle r.home
      let m : Mail := { slot := slotOfHandle r.home, m1 := addr, copyOf := some { tid := r.tid, fifo := r.fifo, last := last },
                        m0 := BitVec.ofNat 64 ((r.w3.extractLsb' 16 16).toNat + status * 2 ^ 16 + n * 2 ^ 32) }
      let u := postSignal s j last status n addr
      (r.w3.getLsbD 15 = false ∨ status ≠ 3 →
        (signal = 0 ∨ signal = 3 ∧ status = 3 → u = s)
        ∧ (signal = 1 → core < 4608 →
          ((s.core core).mailbox.length < 32 → (s.core core).held = [] →
            ((last = false ∨ s.thread r.tid = none) → Delivered s u core m)
            ∧ ∀ x, last = true → s.thread r.tid = some x → Delivered (s.putThread r.tid { x with copies := x.copies - 1 }) u core m)
          ∧ (32 ≤ (s.core core).mailbox.length ∨ (s.core core).held ≠ [] →
            u = s.putCore core { s.core core with held := (s.core core).held ++ [m] }))
        ∧ (signal = 2 → let b := s.barrier r.cluster r.barrierNo
          u = s.putBarrier r.cluster r.barrierNo { b with pending := b.pending - n })
        ∧ (signal = 3 → status ≠ 3 → j.groupBanks.Nodup → (∀ p ∈ s.threads, ∀ x y z, p.2.wait ≠ some (.qacq x y z)) →
          u.threads = s.threads ∧ u.mem = s.mem ∧ u.sram = s.sram ∧ (∀ b, b ∉ j.groupBanks → u.bank b = s.bank b)
          ∧ ∀ b ∈ j.groupBanks, ∀ ch, (s.bank b).mode = .fifo ch →
            u.bank b = { s.bank b with mode := .fifo { ch with stages := ch.stages.set ch.wn .published, wn := (ch.wn + 1) % ch.stages.length } }))
      ∧ (r.w3.getLsbD 15 = true → status = 3 →
        let v := postSignal s { j with req := { r with w3 := r.w3 &&& ~~~ 0x8000 } } last status n addr
        (v.thread r.tid = none → u = v.logEvent .copyFault r.home addr r.w3)
        ∧ ∀ x, v.thread r.tid = some x → u = v.putThread r.tid { x with pending := x.pending ++ [{ cause := .copyFault, val := addr }] }))
    ∧ (∀ j : CopyJob, let r := j.req
      let t := tensorOf j.desc
      (r.kind = 0 → r.bytes j.desc = (r.w2.extractLsb' 0 32).toNat
        ∧ ∀ k, k < r.bytes j.desc → ∃ f, j.plan[k]? = some (some (r.w0 + BitVec.ofNat 64 k), f))
      ∧ (r.kind = 3 → r.bytes j.desc = (r.w2.extractLsb' 0 32).toNat
        ∧ ∀ k, k < r.bytes j.desc → j.plan[k]? = some (none, r.w0.extractLsb' (8 * (k % 8)) 8))
      ∧ (r.kind = 1 ∨ r.kind = 2 → t.size ≠ 0 → r.bytes j.desc = t.size * t.shape.getD 0 0 * t.shape.getD 1 0 * t.shape.getD 2 0 * t.shape.getD 3 0
        ∧ ∀ k0 k1 k2 k3 i, k0 < t.shape.getD 0 0 → k1 < t.shape.getD 1 0 → k2 < t.shape.getD 2 0 → k3 < t.shape.getD 3 0 → i < t.size →
          let o := fun (m : Nat) => (r.w2.extractLsb' (16 * m) 16).toNat + if m = t.step then j.iter * t.amount else 0
          let f := k0 + t.shape.getD 0 0 * (k1 + t.shape.getD 1 0 * (k2 + t.shape.getD 2 0 * k3))
          let at_ := t.base + BitVec.ofNat 64 ((o 0 + k0) * t.size + (o 1 + k1) * t.stride.getD 1 0 + (o 2 + k2) * t.stride.getD 2 0
            + (o 3 + k3) * t.stride.getD 3 0)
          let inside := o 0 + k0 < t.extent.getD 0 0 ∧ o 1 + k1 < t.extent.getD 1 0 ∧ o 2 + k2 < t.extent.getD 2 0 ∧ o 3 + k3 < t.extent.getD 3 0
          (inside → ∃ g, j.plan[t.size * f + i]? = some (some (at_ + BitVec.ofNat 64 i), g))
          ∧ (¬ inside → j.plan[t.size * f + i]? = some (none, t.fill.extractLsb' (8 * i) 8))))

/-! ### Events of threads and of the schedule -/

/-- R85, R102, R128, R134, R137, R146, R149, R151, R269, R321, R369 and R376, events of one thread: a pending trap is taken at a boundary, the event of
highest rank first; an instruction's own trap beside an event recurs, and that of a barrier phase, which cannot, is owed and
taken when the thread is back at its PC (log 24); TRAPPING ends 16 cycles after it began; a divide writes its result once it
is done; a walk that admits its access fills the TLBs and sets A and M; a fetch fills the instruction cache or traps;
single-step and the watchdog leave a trap pending, and the watchdog ends the wait (log 27); a REMOTE access without a response
ends in LINK_RESET; an access that found a SUSPENDED cell pushes the cell's thunk, makes the cell EVALUATING and waits on it,
where no word of the thunk's record is tagged (log 36). The slot that the thunk keeps, its loader's or the next that frees, is
log 54. -/
def Obligations.ThreadEventsTakeEffect : Prop :=
  ∀ (s : State) (t : Nat) (th : Thread), s.thread t = some th →
    let put := fun (x : Thread) => Host.Outcome.next (s.putThread t x)
    let bound := ∃ h, th.place = .slot h
    let free := bound ∧ th.head = none ∧ th.wait = none ∧ th.trapUntil = none
    let takes := fun (x : Thread) (tr : Trap) => exec (.trapEntry t) s = .next ((s.putThread t x).takeTrapAt t th.pc
      (if tr.cause = .debugStep then { tr with val := th.pc } else tr) (if tr.cause = .linkReset then th.skip else 0))
    (free → th.redo = none → (s.core th.core).retired = false →
      (∀ tr, th.owed = none → tr ∈ th.pending → (∀ x ∈ th.pending, x ≠ tr → tr.cause.rank < x.cause.rank) →
        (5 ≤ tr.cause.rank → takes { th with pending := th.pending.erase tr } tr)
        ∧ (tr.cause.rank < 5 → takes { th with
            pending := (th.pending.erase tr).filter (fun x => decide (x.cause.rank < 5)),
            owed := (th.pending.find? (fun x => x.cause == .barrierFpCollected)).map (fun x => (th.pc, x)) } tr))
      ∧ (∀ tr, th.pending = [] → th.owed = some (th.pc, tr) → tr.cause = .barrierFpCollected → takes { th with owed := none } tr))
    ∧ ([Cause.machineCheck, .haltedByManagement, .watchdog, .copyFault, .debugStep].map Cause.rank = [0, 1, 2, 3, 4])
    ∧ (∀ c, th.trapUntil = some c → (c ≤ s.cycle → exec (.trappingPeriodEnd t) s = put { th with trapUntil := none })
      ∧ (s.cycle < c → exec (.trappingPeriodEnd t) s = .next s))
    ∧ (∀ hd d v c, th.head = some hd → hd.op = .div d v c →
      (c ≤ s.cycle → exec (.divideComplete t) s = put ((th.setX d v).completeHead s.cycle))
      ∧ (s.cycle < c → exec (.divideComplete t) s = .next s))
    ∧ (∀ va kind h, walkHit s (cxOf s th) kind (va.extractLsb' 0 52).toNat va = .ok h →
      exec (.pageTableWalk t va kind) s = .next (touch s (some th.core) kind h))
    ∧ (∀ r, free → fetch s th = .ok r → ((touch s (some th.core) .fetch r.hit).core th.core).icache.length < 512 →
      let line := r.hit.entry.pa (th.pc.extractLsb' 0 52).toNat / 32
      ∃ u, exec (.instructionFetch t) s = .next u ∧ u.threads = s.threads
        ∧ (u.core th.core).icache.find line = some (((s.core th.core).icache.find line).getD (lineOf s line)))
    ∧ (∀ tr, free → fetch s th = .error (some tr) → exec (.instructionFetch t) s = .next (s.takeTrap t tr))
    ∧ (bound → (∀ p ∈ th.pending, p.cause ≠ .debugStep) →
      exec (.debugStep t) s = put { th with pending := th.pending ++ [{ cause := .debugStep, val := 0 }] })
    ∧ (let limit := (s.core th.core).wdog.toNat
      bound → limit ≠ 0 → limit < s.cycle / 16 - th.lastRetire → s.helben.halts.find (s.cluster (clusterOfCore th.core)).partId = none →
      (∀ p ∈ th.pending, p.cause ≠ .watchdog) →
      let bites := put { th with lastRetire := s.cycle / 16, pending := th.pending ++ [{ cause := .watchdog, val := 0 }] }
      (th.wait = none → exec (.watchdogExpiry t) s = bites)
      ∧ (∀ d, th.wait = some (.recv d) → exec (.watchdogExpiry t) s = put
          { th with lastRetire := s.cycle / 16, pending := th.pending ++ [{ cause := .watchdog, val := 0 }], wait := none, wake := false, kind := 2, again := false, redo := none }))
    ∧ (∀ hd d size sext ptr dev addr lpage, th.head = some hd → hd.op = .load d size sext ptr (.remote dev addr) lpage →
      (∀ link l c, s.fabric.resetAt = [(link, l)] → c ∈ l → linkServes s.fabric link dev = true → hd.since ≤ c → c + 2 ^ 20 ≤ s.cycle →
        exec (.remoteResponseTimeout t) s = .next (s.takeTrapAt t hd.pc { cause := .linkReset, val := ptr } hd.retired))
      ∧ (∀ h, s.helben.halts.find (s.cluster (clusterOfCore th.core)).partId = some h → h.since + 2 ^ 20 ≤ s.cycle →
        exec (.haltRemoteTimeout t) s = put { th with head := none, window := none, pc := hd.pc, redo := none, skip := hd.retired, pending := th.pending ++ [{ cause := .linkReset, val := ptr }] }))
    ∧ (∀ pa ptr use, suspendedAccess s th = some (pa, ptr, use) →
      (∀ tr, th.head = none → startEvaluation s t pa ptr use = .error (some tr) → exec (.evaluationStart t) s = .next (s.takeTrap t tr))
      ∧ (∀ hd tr, th.head = some hd → startEvaluation s t pa ptr use = .error (some tr) →
        exec (.evaluationStart t) s = .next (s.takeTrapAt t hd.pc tr 0))
      ∧ (∀ l s1 s2, rising s.threads → th.evalOf = none → sliceHasRoom s pa 2 = true → pa % 8 = 0 →
        let p : Word := BitVec.ofNat 64 (s.mem.readLE pa 8)
        p.extractLsb' 60 4 = 0 → p.extractLsb' 52 4 = 0 → p.toNat % 64 = 0 → loadWords s (cxOf s th) th.place.handle p 8 = .ok (l, s1) →
        thunkRecordOk l = true → wordsTagged s1 (cxOf s th) th.place.handle p 8 = false →
        let at_ := thunkCore s1 th l pa
        let keep : Keep := if at_.2 = false then .no
          else if (cachedOn s1 th.core).length < 8 ∨ freeSpill s1 th.core ≠ none then .slot (slotOfHandle th.place.handle) else .first
        let e : DequeEntry := { kind := .thunk pa (ptr &&& ~~~ 7) s1.seq keep, entry := l.getD 0 0, arg := l.getD 1 0, x11 := p, wid := th.wid,
                                widself := th.widself, prio := ((l.getD 4 0).extractLsb' 36 4).toNat, mult := 1, lctx := th.lctx.toNat, record := l }
        chargeAndPush s1 (dieOfCore th.core) at_.1 e = .ok s2 →
        ∃ u x, exec (.evaluationStart t) s = .next u ∧ u.tag pa = 2 ∧ (u.core at_.1).deque.head? = some e
          ∧ ((at_.2 = true ∨ ∀ y ∈ (s2.core th.core).deque, ∀ f g k, y.kind ≠ .thunk f g k .first) →
            (u.core at_.1).deque = (s2.core at_.1).deque)
          ∧ u.evals.find pa = some { serial := s1.seq, waitsOn := none, waiters := [t] }
          ∧ u.thread t = some x ∧ x.wait = some (.cell pa ptr use) ∧ x.head = none ∧ x.x = th.x
          ∧ x.pc = (match th.head with | some hd => hd.pc | none => th.pc)))

/-- R90, R139, R144, R145 and R283 to R287, scheduling: at a rotation boundary a core binds the record of its deque in its lowest EMPTY slot, as R86 sets a
thread (the order of a boundary's parts is log 24); a thief takes the top record of its victim, or the upper half of a range,
at the bottom of its own deque, with its context, and tries the next victim after a refusal (a record that stands in the spill
region is read from it, log 56); for a context starved for 64 rotations the newest
thread of the context most over its share is chosen, which leaves its slot at its boundary, with a wait that pre-emption
withdraws (log 26), and the starved context's count starts again; the slot so freed goes to the thunk that has waited for the
next one longest (log 54); a core whose datapath fails is retired and its thread
pre-empted with DATAPATH_CHECK pending (log 30). -/
def Obligations.SchedulingEventsMoveThreads : Prop :=
  ∀ s : State,
    (s.cycle / 16 < s.rot → exec .rotationBoundary s = .next s)
    ∧ (∀ (c : Nat) (k : Core) (e : DequeEntry), s.rot ≤ s.cycle / 16 → s.threads = [] → s.cores = [(c, k)] → k.deque = [e] →
      e.kind = .task → e.spill = none → k.served = [] → engineRuns s c = true → c < 4608 →
      ∃ u x, exec .rotationBoundary s = .next u ∧ u.rot = s.cycle / 16 + 1 ∧ u.thread s.nextTid = some x ∧ (u.core c).deque = []
        ∧ x.place = .slot (handleOf c 0) ∧ x.pc = e.entry ∧ x.getX 10 = e.arg ∧ x.getX 11 = e.x11
        ∧ (∀ r, r ≠ 10 → r ≠ 11 → x.getX r = 0) ∧ x.v = Vector.replicate 16 0 ∧ x.mult = BitVec.ofNat 32 e.mult ∧ x.wid = e.wid
        ∧ x.widself = e.widself ∧ x.lctx = BitVec.ofNat 16 e.lctx ∧ x.mode = .user ∧ x.lastIssue = some s.cycle
        ∧ u.csrsOf x = (if e.lctx < 65536 then ((s.launches.find e.lctx).map (fun l => l.csrs)).getD CtxCsrs.reset else u.csrsOf x))
    ∧ (∀ (c v : Nat), stealDue s c = true → (victimsOf s c)[(s.core c).victim % (victimsOf s c).length]? = some v → v ≠ c →
      let d := (s.core v).deque
      (givenEntry s c v = none → exec (.stealRequest c) s = .next (s.putCore c
        { s.core c with asked := s.rot, victim := ((s.core c).victim + 1) % (victimsOf s c).length }))
      ∧ (∀ i e, givenEntry s c v = some i → d[i]? = some e → (s.core c).deque.length < dequeCapacity s c →
        let onChip := fun (l : List DequeEntry) => l.length ≤ 64 ∧ ∀ x ∈ l, x.spill = none
        let x := e.taken s
        let takes := fun (left : List DequeEntry) (got : DequeEntry) =>
          ∃ u, exec (.stealRequest c) s = .next u ∧ (u.core c).asked = s.rot ∧ (u.core c).victim = 0 ∧ u.threads = s.threads
            ∧ (onChip d → (u.core v).deque = left) ∧ (onChip (e :: (s.core c).deque) → (u.core c).deque = got :: (s.core c).deque)
            ∧ (onChip d → onChip (e :: (s.core c).deque) → u.mem = s.mem)
            ∧ (e.spill = none → ∃ y ∈ (u.core c).served, y.lctx = e.lctx)
        (e.spill = none → x = e)
        ∧ (∀ a, e.spill = some a → x = e.ofWords ((List.range 8).map (fun k => BitVec.ofNat 64 (s.mem.readLE (a + 8 * k) 8))))
        ∧ (∀ lo hi, x.kind = .range lo hi → lo + 2 ≤ hi →
          takes (d.set i { x with kind := .range lo (lo + (hi - lo) / 2) }) { x with kind := .range (lo + (hi - lo) / 2) hi })
        ∧ ((∀ lo hi, x.kind ≠ .range lo hi) → takes (d.eraseIdx i) x)
        ∧ (∀ lo hi, x.kind = .range lo hi → hi < lo + 2 → takes (d.eraseIdx i) x)))
    ∧ (∀ (c t : Nat) (th : Thread) (o : Served), starvationDue s c = true → mostOver s c = some o → newestBound s c o.lctx = some (t, th) →
      ∃ u, exec (.starvationPreemption c) s = .next u ∧ u.thread t = some { th with preempt := true }
        ∧ u.core c = { s.core c with chosen := s.rot } ∧ u.mem = s.mem)
    ∧ (∀ (t h : Nat) (th : Thread), s.thread t = some th → th.place = .slot h → th.preempt = true → th.head = none → th.trapUntil = none →
      th.redo = none → (th.wait = none ∨ (∃ d l, th.wait = some (.wfi d l [])) ∨ (∃ x y z, th.wait = some (.macq x y z))
        ∨ ∃ p c d a, th.wait = some (.broker p c d a)) → (∀ p ∈ s.threads, ∀ d x y, p.2.wait ≠ some (.ctxout d x y)) →
      th.pending = [] → th.owed = none → (s.core th.core).retired = false → rising s.threads →
      let d := (s.core th.core).deque
      let k := slotOfHandle h
      ((cachedOn s th.core).length < 8 → ∃ u, exec (.preemptionSave t) s = .next u ∧ u.mem = s.mem ∧ u.seq = s.seq + 1
        ∧ u.thread t = some { th with preempt := false, window := none, wait := none, place := .cached h, bound := s.seq }
        ∧ (∀ a, starvedContext s th.core = some a → ∀ x ∈ (u.core th.core).served, x.lctx = a.lctx → x.starved = 0)
        ∧ ((∀ y ∈ d, ∀ f g n, y.kind ≠ .thunk f g n .first) → (u.core th.core).deque = d)
        ∧ ∀ i y f g n, d[i]? = some y → y.kind = .thunk f g n .first →
          (∀ m z, i < m → d[m]? = some z → ∀ f g n, z.kind ≠ .thunk f g n .first) →
          (∀ z ∈ d, ∀ f g n, z.kind ≠ .thunk f g n (.slot k)) →
          (u.core th.core).deque = d.set i { y with kind := .thunk f g n (.slot k) })
      ∧ (8 ≤ (cachedOn s th.core).length → freeSpill s th.core = none →
        exec (.preemptionSave t) s = .next (s.putThread t { th with preempt := false })))
    ∧ (∀ (t h : Nat) (th : Thread), s.threads = [(t, th)] → th.place = .slot h → (s.core th.core).deque = [] →
      ∃ u, exec (.datapathCheckRetirement t) s = .next u ∧ (u.core th.core).retired = true ∧ u.mem = s.mem
        ∧ u.thread t = some { th with preempt := true, pending := th.pending ++ [{ cause := .datapathCheck, val := th.pc }] })

/-! ### The host, the fabric and the directory -/

/-- R364 to R372, R301, R302, R311 and R317: a host read through BAR 2, of 64 GiB, returns the raw bytes of its translated addresses and starts
nothing, and a host write stores its bytes with tag VALUE; one that the table refuses, a read of an uncorrectable byte (log
11), and a write to an EVALUATING word of an L page, completes as Unsupported Request and is logged. BAR 0 reads the MSI-X
table and the pending bits, writes the table, sends the vectors that this enables (log 17), and rings every doorbell that it
covers, which sets the cluster's bit (log 47). Either reset clears the table and every doorbell only. A replayed flit shows
nothing; the sixteenth failure of one flit resets the link, which is logged (log 46) and interrupts a launch with an access in
flight on it. An access of another package is made under the table bound to it or refused with its cause (log 45), once for
each sequence number; one of its operations on a D page is staged until its launch completes (log 81). A directory request
changes no value and moves its slice's pointer past the core's port (logs 5 and 52). That the host translates as supervisor,
and that its window starts at device virtual address 0, is the model's choice (log 11). -/
def Obligations.HostFabricAndDirectoryEventsTakeEffect : Prop :=
  ∀ s : State, Tidy s →
    let refused := fun (va : Word) => Host.Outcome.next { s.logEvent .hostRefused 0 va 0 with host := { s.host with reply := none } }
    (∀ (va : Word) (data n : Nat) (hit : Nat → Hit), 1 ≤ n →
      let pa := fun i => (hit i).entry.pa (va.toNat + i)
      let ok := fun (kind : AccessKind) (i : Nat) => va.toNat + i < 2 ^ 36
        ∧ walkHit s (hostCx s) kind (va.toNat + i) (BitVec.ofNat 64 (va.toNat + i)) = .ok (hit i) ∧ lineHeld s (.dram (pa i)) 1 = false
      let walks := fun (kind : AccessKind) => ∀ i, i < n → ok kind i
      let fails := fun (kind : AccessKind) => ∃ i, i < n ∧ (∀ k, k < i → ok kind k) ∧ (2 ^ 36 ≤ va.toNat + i
        ∨ va.toNat + i < 2 ^ 36 ∧ ∃ tr, walkHit s (hostCx s) kind (va.toNat + i) (BitVec.ofNat 64 (va.toNat + i)) = .error (some tr))
      let leaves := fun (a : Nat) => ∃ i, i < n ∧ (hit i).entry.pteAddr ≤ a ∧ a < (hit i).entry.pteAddr + 8
      (walks .load → (∀ i, i < n → s.isBad (pa i) 1 = false) →
        ∃ u v, exec (.hostBar2Read (.bar2 va) n) s = .next u ∧ u.host.reply = some v ∧ v < 256 ^ n
          ∧ (∀ i, i < n → v / 256 ^ i % 256 = (s.mem.read (pa i)).toNat)
          ∧ (∀ a, ¬ leaves a → u.mem.read a = s.mem.read a) ∧ u.tags = s.tags ∧ u.evals = s.evals ∧ u.threads = s.threads)
      ∧ (walks .load → (∃ i, i < n ∧ s.isBad (pa i) 1 = true) → exec (.hostBar2Read (.bar2 va) n) s = refused va)
      ∧ (walks .store → (∃ i, i < n ∧ (hit i).entry.pte.getLsbD 9 = true ∧ s.tag (pa i) = 2) → exec (.hostBar2Write va n data) s = refused va)
      ∧ (walks .store → (∀ i, i < n → (hit i).entry.pte.getLsbD 9 = true → s.tag (pa i) ≠ 2) →
        (∀ i k, i < n → k < n → pa i = pa k → i = k) →
        ∃ u, exec (.hostBar2Write va n data) s = .next u ∧ u.host.reply = some 0
          ∧ (∀ i, i < n → u.mem.read (pa i) = BitVec.ofNat 8 (data / 256 ^ i) ∧ u.tag (pa i) = 0)
          ∧ (∀ a, (∀ i, i < n → a ≠ pa i) → ¬ leaves a → u.mem.read a = s.mem.read a) ∧ u.evals = s.evals ∧ u.threads = s.threads)
      ∧ (fails .load → exec (.hostBar2Read (.bar2 va) n) s = refused va) ∧ (fails .store → exec (.hostBar2Write va n data) s = refused va)
      ∧ (∀ o, o + n ≤ 2 ^ 20 → (o < 0x10000 ∨ 0x10480 ≤ o) →
        ∃ v, exec (.hostBar2Read (.bar0 o) n) s = .next { s with host := { s.host with reply := some v } }
          ∧ ∀ i k, i < n → k < 8 → v.testBit (8 * i + k) = if o + i < 0x8000 then (s.host.msix.read (o + i)).getLsbD k
            else if o + i < 0x8100 then decide ((o + i - 0x8000) * 8 + k ∈ s.host.pending) else false))
    ∧ (∀ (off n data : Nat), 1 ≤ n → ∃ u, exec (.hostBar0Write off n data) s = .next u ∧ u.mem = s.mem ∧ u.threads = s.threads
      ∧ (∀ a, u.host.msix.read a = if off ≤ a ∧ a < off + n ∧ a < 0x8000 then BitVec.ofNat 8 (data / 256 ^ (a - off)) else s.host.msix.read a)
      ∧ (0x8000 ≤ off → u.host = s.host)
      ∧ (off < 0x8000 → ∀ v, let goes := v ∈ s.host.pending ∧ msixEnabled u.host v = true ∧ msixMasked u.host v = false
        (v ∈ u.host.pending ↔ v ∈ s.host.pending ∧ ¬ goes) ∧ (v ∈ u.host.sent ↔ v ∈ s.host.sent ∨ goes))
      ∧ ∀ c, u.cluster c = if c < 144 ∧ off < 0x10000 + 8 * c + 8 ∧ 0x10000 + 8 * c < off + n
        then { s.cluster c with doorbell := true } else s.cluster c)
    ∧ (∀ c, (c < 144 → exec (.doorbellRing c) s = .next (s.putCluster c { s.cluster c with doorbell := true }))
      ∧ (144 ≤ c → exec (.doorbellRing c) s = .next s))
    ∧ (∀ i ∈ [Instr.functionLevelReset, .conventionalReset], ∃ u, exec i s = .next u ∧ u.host.msix = [] ∧ u.host.reply = none
      ∧ (∀ c, u.cluster c = { s.cluster c with doorbell := false }) ∧ u.threads = s.threads ∧ u.launches = s.launches ∧ u.mem = s.mem
      ∧ u.sram = s.sram ∧ { u.helben with shadows := s.helben.shadows } = s.helben
      ∧ ∀ p x, s.helben.shadows.find p = some x → ∃ y, u.helben.shadows.find p = some y ∧ { y with clusters := x.clusters } = x
        ∧ ∀ c k, x.clusters.find c = some k → y.clusters.find c = some { k with doorbell := false })
    ∧ (∀ link, link < 16 →
      (∃ u l, exec (.linkResetRetrain link) s = .next u ∧ u.fabric.resetAt.find link = some (s.cycle :: l)
        ∧ (∀ old, s.fabric.resetAt.find link = some old → ∀ c ∈ old, s.cycle < c + 2 ^ 20 → c ∈ l)
        ∧ u.helben.log.head? = some { nanos := s.cycle * 50 / 47, code := .linkReset, unit := 0, handle := 0, v1 := BitVec.ofNat 64 link, v2 := 0 }
        ∧ (s.helben.journal = [] → u.threads = s.threads ∧ u.mem = s.mem)
        ∧ ∀ t x ptr dev j, s.threads = [(t, x)] → remoteAccess x = some (ptr, dev) → linkServes s.fabric link dev = true →
          s.helben.journal = [j] → j.lctx = x.lctx.toNat → j.lctx ≠ 0 → u.threads = [] ∧ u.helben.journal = [{ j with phase := 1 }])
      ∧ (let counts := fun (same : Bool) (k : Nat) => ∃ u, exec (.linkFlitReplay { link := link, same := same }) s = .next u ∧ u = { s with fabric := u.fabric }
          ∧ u.fabric = { s.fabric with replays := u.fabric.replays } ∧ u.fabric.replays.find link = some k
        let k := (s.fabric.replays.find link).getD 0
        counts false 1 ∧ (k < 15 → counts true (k + 1))
        ∧ (15 ≤ k → exec (.linkFlitReplay { link := link, same := true }) s = exec (.linkResetRetrain link) s)))
    ∧ (∀ (dev : Nat) (sup : Bool) (m : RemoteMsg) (va data : Word) (n : Nat),
      let seen := (s.fabric.seen.find dev).getD []
      let runs := fun (u : State) (v : Reply) => exec (.remoteRequest dev sup m) s = .next u ∧ u.fabric.answer = some v
        ∧ u.threads = s.threads ∧ u.fabric.seen.find dev = some (m.seqno :: seen)
      let refuses := fun (c : Cause) => ∃ u, runs u (.refused c) ∧ u.mem = s.mem ∧ u.tags = s.tags
      let cx : Cx := { core := none, die := 4, mode := Mode.ofBit sup, asid := 0, ptbase := (s.helben.remotes.find dev).getD 0, privbase := 0 }
      let many := fun (h : Hit) => (h.entry.pte.getLsbD 8 && h.entry.pte.getLsbD 9) || (h.entry.pte.getLsbD 8 && h.entry.pte.getLsbD 10)
        || (h.entry.pte.getLsbD 9 && h.entry.pte.getLsbD 10)
      let K := fun (h : Hit) => h.entry.pte.getLsbD 10
      let L := fun (h : Hit) => h.entry.pte.getLsbD 9
      let D := fun (h : Hit) => h.entry.pte.getLsbD 8
      let isLoad := m.req = .load va n
      let isStore := m.req = .store va n data
      (m.seqno ∈ seen → exec (.remoteRequest dev sup m) s = .next s)
      ∧ (m.seqno ∉ seen → n ∈ [1, 2, 4, 8] → s.helben.remotes.find dev = none →
        (isLoad → refuses .loadPageFault) ∧ (isStore → refuses .storePageFault))
      ∧ (m.seqno ∉ seen → n ∈ [1, 2, 4, 8] → s.helben.remotes.find dev ≠ none → (va.toNat % n ≠ 0 ∨ 2 ^ 52 ≤ va.toNat) →
        (isLoad → refuses .loadMisaligned) ∧ (isStore → refuses .storeMisaligned))
      ∧ (m.seqno ∉ seen → n ∈ [1, 2, 4, 8] → s.helben.remotes.find dev ≠ none → va.toNat % n = 0 → va.toNat < 2 ^ 52 →
        (isLoad → (∀ tr, walkHit s cx .load va.toNat va = .error (some tr) → refuses tr.cause)
          ∧ ∀ h, walkHit s cx .load va.toNat va = .ok h →
            let pa := h.entry.pa va.toNat
            (many h = true → refuses .attributeConflict)
            ∧ (many h = false → lineHeld s (.dram pa) n = false →
              (s.isBad pa n = true → refuses .uncorrectableData)
              ∧ (s.isBad pa n = false → L h = true → s.tag pa ≠ 0 → refuses .thunkInvalid)
              ∧ (s.isBad pa n = false → (L h = true → s.tag pa = 0) → ∃ u, runs u (.done (BitVec.ofNat 64 (s.mem.readLE pa n)))
                ∧ u.mem = (touch s none .load h).mem ∧ u.tags = s.tags)))
        ∧ (isStore → (∀ tr, walkHit s cx .store va.toNat va = .error (some tr) → refuses tr.cause)
          ∧ ∀ h, walkHit s cx .store va.toNat va = .ok h →
            let pa := h.entry.pa va.toNat
            (many h = true → refuses .attributeConflict)
            ∧ (many h = false → K h = true → refuses .kvNotOwner)
            ∧ (many h = false → K h = false → lineHeld s (.dram pa) n = false →
              (L h = true → tagBad s pa = true → refuses .uncorrectableData)
              ∧ (L h = true → tagBad s pa = false → s.tag pa ≠ 0 → refuses .thunkInvalid)
              ∧ ((L h = true → tagBad s pa = false ∧ s.tag pa = 0) → ∃ u, runs u (.done 0) ∧ ∀ a, u.mem.read a
                = if pa ≤ a ∧ a < pa + n then data.extractLsb' (8 * (a - pa)) 8 else (touch s none .store h).mem.read a))))
      ∧ (∀ h b c op ret mult frm, m.seqno ∉ seen → m.req = .atom va op n ret b c mult frm → n = 4 ∨ n = 8 →
        s.helben.remotes.find dev ≠ none → va.toNat % n = 0 → va.toNat < 2 ^ 52 → walkHit s cx .store va.toNat va = .ok h →
        let pa := h.entry.pa va.toNat
        let s1 := touch s none .store h
        (op = 0 → ret = true → h.entry.pte.getLsbD 1 = false → refuses .loadProtection)
        ∧ (op = 0 → ret = true → h.entry.pte.getLsbD 1 = true → D h = true → L h = false → K h = false → refuses .determinismViolation)
        ∧ (op = 0 → ret = true → h.entry.pte.getLsbD 1 = true → D h = false → L h = false → K h = false → lineHeld s (.dram pa) n = false →
          s.isBad pa n = false →
          let A := BitVec.ofNat (8 * n) (s1.mem.readLE pa n)
          ∃ u, runs u (.done (A.signExtend 64)) ∧ u.mem.readLE pa n = (A + BitVec.ofNat (8 * n) mult * BitVec.ofNat (8 * n) b.toNat).toNat)
        ∧ (op < 15 → (n = 8 → op ≠ 1 ∧ op ≠ 9 ∧ op ≠ 10 ∧ op ≠ 14) → ret = false → D h = true → L h = false → K h = false → m.lctx ≠ 0 →
          lineHeld s (.dram pa) n = false → ∃ u, runs u (.done 0) ∧ u.mem = s1.mem
          ∧ ∃ r, u.fabric.staged = s.fabric.staged ++ [((dev, m.lctx), r)] ∧ r.wid = m.wid ∧ r.seqno = m.key ∧ r.pa = pa
            ∧ r.b = (if n = 4 then b &&& 0xFFFFFFFF else b) ∧ r.c = (if op = 12 then c else 0)
            ∧ r.mult = mult ∧ r.op = BitVec.ofNat 8 (op + (if n = 4 then 16 else 0))))
      ∧ (m.seqno ∉ seen → m.req = .finish → ∀ r, s.fabric.staged = [((dev, m.lctx), r)] →
        (∀ p ∈ r.targets, lineHeld s (.dram p.1) p.2 = false) →
        ∃ u, runs u (.done 0) ∧ u.mem = (applyStaged s r).mem ∧ u.fabric.staged = []))
    ∧ (∀ core line, core < 4608 → line * 32 < 0x3000000000 → lineHeld s (.dram (line * 32)) 32 = false →
      let old := s.dir.find line
      let cl := clusterOfCore core
      (∃ d, (∀ kind, kind ≠ .evict → ∃ x, exec (.coherentLineRequest core line kind) s = .next { s with dir := x, dies := d }
          ∧ (∀ k, k ≠ line → x.find k = s.dir.find k)
          ∧ (kind = .write → x.find line = some (.ownedCore core)) ∧ (kind = .clusterWrite → x.find line = some (.ownedCluster cl))
          ∧ (kind = .read → old = none → x.find line = some (.shared [core]))
          ∧ (∀ l, kind = .read → old = some (.shared l) → core ∉ l → x.find line
            = some (if l.length < 4 then .shared (l ++ [core]) else .coarse ((l ++ [core]).map clusterOfCore).eraseDups))
          ∧ (∀ c, kind = .read → old = some (.ownedCore c) → c ≠ core → x.find line = some (.shared [core]))
          ∧ (kind = .clusterRead → old = none → x.find line = some (.coarse [cl])))
        ∧ (∀ k, k ≠ homeSlice s (line * 32) / 128 → d.find k = s.dies.find k)
        ∧ (homeSlice s (line * 32) / 128 = dieOfCore core → ∃ x, d.find (dieOfCore core) = some x
          ∧ x.ports.find (homeSlice s (line * 32) % 128) = some ((clusterOfCore core % 36 + 1) % 40)
          ∧ { x with ports := (s.die (dieOfCore core)).ports } = s.die (dieOfCore core)))
      ∧ ∃ x, exec (.coherentLineRequest core line .evict) s = .next { s with dir := x } ∧ (rising s.dir → x.find line = none)
        ∧ ∀ k, k ≠ line → x.find k = s.dir.find k)

/-! ### Partitions -/

/-- R149, R150 and R6: a halt of a partition of up to 8 clusters (log 28) withdraws the waits of MACQ, WFI, a broker request and CTXOUT (log 26) of its
partition and is logged; a halted partition's release
after a suspend halt changes no thread, and after a stop halt leaves HALTED_BY_MANAGEMENT pending with the reason code. A halt
beyond Helben's limit ends in MACHINE_CHECK for a thread that still waits, which is logged with the halt's reason, and drops the
copy requests that are accepted still (log 80). A swap saves the halted partition's clusters, cores, bank bytes and the marks of
uncorrectable bank words, and empties the clusters for the other one; swapping back in returns the saved clusters and cores, and
the thread to its slot (log 29), but a core is retired or not as it is now; an image that fails its check is logged at its
address, a free value, and stays out. -/
def Obligations.PartitionsHaltReleaseAndSwap : Prop :=
  ∀ s : State, Tidy s →
    (∀ (pid : Nat) (stop : Bool) (reason : Word),
      ((s.helben.halts.find pid).isSome = true ∨ 8 < (clustersOf s pid).length → exec (.partitionHalt pid stop reason) s = .next s)
      ∧ (s.helben.halts.find pid = none → (clustersOf s pid).length ≤ 8 → ∃ u, exec (.partitionHalt pid stop reason) s = .next u
        ∧ u.helben.halts.find pid = some { stop := stop, reason := reason, since := s.cycle } ∧ u.mem = s.mem ∧ u.cores = s.cores
        ∧ ∀ t x, s.thread t = some x →
          let withdrawn := (s.cluster (clusterOfCore x.core)).partId = pid ∧ x.isBound = true
            ∧ ((∃ a b c, x.wait = some (.macq a b c)) ∨ (∃ a b, x.wait = some (.wfi a b []))
              ∨ (∃ a b c, x.wait = some (.ctxout a b c)) ∨ ∃ a b c e, x.wait = some (.broker a b c e))
          (withdrawn → u.thread t = some { x with wait := none }) ∧ (¬ withdrawn → u.thread t = some x)))
    ∧ (∀ (pid : Nat) (h : HaltRec), s.helben.halts.find pid = some h →
      (haltDone s pid = false → exec (.partitionRelease pid) s = .next s)
      ∧ (haltDone s pid = true → h.stop = false → ∃ u, exec (.partitionRelease pid) s = .next u ∧ u.helben.halts.find pid = none
        ∧ u.threads = s.threads ∧ u.cores = s.cores ∧ u.mem = s.mem)
      ∧ (∀ t x k, s.threads = [(t, x)] → x.place = .slot k → (s.cluster (clusterOfCore x.core)).partId = pid → x.wait = none →
        haltDone s pid = true → h.stop = true → ∃ u, exec (.partitionRelease pid) s = .next u ∧ u.helben.halts.find pid = none
          ∧ u.threads = [(t, { x with pending := x.pending ++ [{ cause := .haltedByManagement, val := h.reason }] })])
      ∧ (∀ t x k, s.threads = [(t, x)] → x.place = .slot k → (s.cluster (clusterOfCore x.core)).partId = pid → x.settled = false → x.evalOf = none →
        s.late = [] → h.since + s.helben.haltLim < s.cycle → ∃ u, exec (.haltLimitExpiry pid) s = .next u ∧ u.threads = [] ∧ u.mem = s.mem
          ∧ (∃ r ∈ u.helben.log, r.code = .machineCheck ∧ r.handle = k ∧ r.v1 = h.reason ∧ r.nanos = s.cycle * 50 / 47)
          ∧ ∀ c ∈ clustersOf s pid, (u.cluster c).jobs = [])
      ∧ (s.cycle ≤ h.since + s.helben.haltLim → exec (.haltLimitExpiry pid) s = .next s))
    ∧ (∀ (out load : Nat) (h : HaltRec), s.helben.halts.find out = some h → out ≠ load → haltDone s out = true → clustersOf s load = [] →
      (clustersOf s out).length ≤ 8 →
      let mine := fun (c : Nat) => c < 144 ∧ (s.cluster c).partId = out ∧ (s.cluster c).retired = false
      (s.helben.shadows.find load = none → ∃ u, exec (.partitionSwap out load) s = .next u ∧ u.helben.halts.find out = none ∧ u.mem = s.mem
        ∧ (∀ c, mine c → u.cluster c = { Cluster.reset with partId := load }) ∧ (∀ c, ¬ mine c → u.cluster c = s.cluster c)
        ∧ (∀ t x k, s.thread t = some x → x.place = .slot k → mine (clusterOfCore x.core) → ∃ y, u.thread t = some y
          ∧ y.place = .swapped out 0 k 0 ∧ y.x = x.x ∧ y.v = x.v ∧ y.m = x.m ∧ y.pc = x.pc ∧ y.head = x.head ∧ y.pending = x.pending)
        ∧ ∃ im, u.helben.shadows.find out = some im ∧ im.halt = h ∧ im.good = true
          ∧ (∀ c, mine c → s.clusters.find c ≠ none → im.clusters.find c = some { s.cluster c with tlb := [] })
          ∧ (∀ c, mine (clusterOfCore c) → s.cores.find c ≠ none → im.cores.find c = some { s.core c with tlb := [], icache := [] })
          ∧ (∀ a, mine (a / 2 ^ 22) → im.sram.read a = s.sram.read a)
          ∧ ∀ w, mine (w / 2 ^ 19) → im.badSram.find w = s.badSram.find w ∧ u.badSram.find w = none)
      ∧ (∀ im, s.helben.shadows.find load = some im → (∀ p ∈ im.clusters, mine p.1) →
        (im.good = false → exec (.partitionSwap out load) s = .next
          { s.logEvent .contextSwapError 0 (Config.freeValue s.free) (BitVec.ofNat 64 load) with free := s.free + 1 })
        ∧ (im.good = true → ∃ u, exec (.partitionSwap out load) s = .next u ∧ u.helben.halts.find load = some im.halt
          ∧ (rising im.clusters → ∀ p ∈ im.clusters, u.cluster p.1 = p.2) ∧ (rising im.cores → rising s.cores → ∀ p ∈ im.cores,
            u.core p.1 = { p.2 with retired := (s.core p.1).retired })
          ∧ (∀ t x k i, s.thread t = some x → x.place = .swapped load 0 k i → ∃ y, u.thread t = some y ∧ y.place = .slot k
            ∧ y.x = x.x ∧ y.v = x.v ∧ y.m = x.m ∧ y.pc = x.pc ∧ y.pending = x.pending))))

/-! ### Helben -/

/-- R374 to R382, R119 and R357: start-up from an image that verifies zeroes memory but for the supervisor's image, sets the partitions, and starts the
supervisor on each (log 7), with the firmware's policy and the trained link logged; when no slot verifies Helben stays in recovery; step 4
is retried on command. An update waits in the inactive slot; confirmation makes it active and raises the counter (log 49); an
update in the place of an unconfirmed image that has been tried leaves its failure to the next boot, which logs it.
Above the cap a die throttles (log 50). A thermal limit stop-halts its partition, and a sample brings a new policy with it
(log 12). A scrub marks its lines and words and logs what it corrected (logs 53 and 57). A part retires until that is lifted; the
threads of a cluster end, one with an access outstanding at its boundary (log 30), and its command FIFOs stay. A failed launch is replayed from its journal record (log 51). Helben grants pages of a brokered pool, with which the draw of the
thread that waits proceeds, and sets and clears the brokered flag (log 43). -/
def Obligations.HelbenStartsWatchesAndRepairs : Prop :=
  ∀ s : State, Tidy s →
    (∀ c : Startup, (∀ k, imageGood s.helben c.slotOk k = false) → ∃ u, exec (.powerOnStartup c) s = .next u ∧ u.helben.recovery = true
      ∧ u.threads = [] ∧ u.mem = [])
    ∧ (∀ (c : Startup), s.helben.pendingSlot = none → imageGood s.helben c.slotOk s.helben.active = true → c.imageOk = true →
      c.failed = [] → (∀ q ∈ s.clusters, q.2.retired = false) → (∀ q ∈ s.cores, q.2.retired = false) → c.image = [] → c.partitions = [] →
      ∃ u x t, exec (.powerOnStartup c) s = .next u ∧ u.helben.booted = true ∧ u.helben.recovery = false ∧ u.helben.running = s.helben.active
        ∧ u.helben.cap = min c.policy.cap 1800 ∧ u.helben.haltLim = c.policy.haltLimit
        ∧ u.host.width = c.width ∧ u.host.rate = c.rate
        ∧ (∃ r ∈ u.helben.log, r.code = .linkTrained ∧ r.v1 = BitVec.ofNat 64 c.width ∧ r.v2 = BitVec.ofNat 64 c.rate)
        ∧ u.fabric.torus = c.torus ∧ u.fabric.device = c.device ∧ u.helben.hostRoot = c.hostRoot
        ∧ (∀ a, u.mem.read a = 0 ∧ u.tag a = 0) ∧ (∀ b, (u.bank b).mode = .cache)
        ∧ u.threads = [(t, x)] ∧ x.place = .slot (handleOf 0 0) ∧ x.pc = c.entry ∧ x.mode = .supervisor ∧ x.lctx = 0
        ∧ (s.helben.missed = true → ∃ r ∈ u.helben.log, r.code = .bootFailed)
        ∧ (∀ core, (u.core core).ctxsplen = 0 ∧ (u.core core).deqspill = 0 ∧ (u.core core).wdog = 0))
    ∧ (∀ c : Startup, (s.helben.step = 4 → s.helben.booted = false → c.imageOk = false → ∃ u, exec (.startupRetryCommand c) s = .next u
        ∧ u.helben.booted = false ∧ u.helben.step = 4 ∧ u.threads = s.threads ∧ u.mem = s.mem)
      ∧ (s.helben.step = 4 → s.helben.booted = false → c.imageOk = true → ∃ u, exec (.startupRetryCommand c) s = .next u
        ∧ u.helben.booted = true ∧ u.helben.step = 5)
      ∧ (s.helben.booted = true → exec (.startupRetryCommand c) s = .next s))
    ∧ (∀ (version : Nat) (verified : Bool),
      let h := s.helben
      let slot := 1 - h.active
      ∃ u, exec (.firmwareUpdate version verified) s = .next u ∧ u.helben.running = h.running ∧ u.helben.active = h.active ∧ u.threads = s.threads
        ∧ u.mem = s.mem ∧ (verified = true → h.rollback ≤ version → u.helben.pendingSlot = some slot)
        ∧ (verified = false ∨ version < h.rollback → u.helben.pendingSlot ≠ some slot)
        ∧ (slot < h.versions.length → u.helben.versions.getD slot 0 = version)
        ∧ (h.tried = true → h.pendingSlot = some slot → u.helben.missed = true))
    ∧ (∀ p, s.helben.pendingSlot = some p → s.helben.tried = true → s.helben.booted = true → s.helben.running = p →
      ∃ u, exec .firmwareConfirm s = .next u ∧ u.helben.active = p ∧ u.helben.pendingSlot = none
        ∧ u.helben.rollback = max s.helben.rollback (s.helben.versions.getD p 0) ∧ u.threads = s.threads ∧ u.mem = s.mem)
    ∧ (∀ die watts level, die < 4 → ∃ u, exec (.powerSense die watts level) s = .next u ∧ u.threads = s.threads ∧ u.mem = s.mem
      ∧ (u.die die).watts = watts
      ∧ (let total := watts + ((List.range 4).filter (· ≠ die)).foldl (fun x d => x + (s.die d).watts) 0
        (s.helben.cap < total → 1 ≤ (u.die die).throttle ∧ (u.die die).throttle ≤ 15) ∧ (total ≤ s.helben.cap → (u.die die).throttle = 0)))
    ∧ (∀ r : Reading, ∃ u, exec (.sensorSample r) s = .next u ∧ u.mem = s.mem ∧ u.cores = s.cores ∧ u.helben.temps = r.temps
      ∧ u.helben.rails = r.rails ∧ u.helben.coolant = r.coolant
      ∧ (∀ q, r.policy = some q → u.helben.cap = min q.cap 1800 ∧ u.helben.haltLim = q.haltLimit) ∧ (r.policy = none → u.helben.cap = s.helben.cap)
      ∧ ∀ p, s.helben.halts.find p = none → (clustersOf s p).length ≤ 8 →
        u.helben.halts.find p = if p ∈ r.hot then some { stop := true, reason := 1, since := s.cycle } else none)
    ∧ (let logged := fun (u : State) (code : LogCode) (unit : BitVec 16) (v1 v2 : Word) => u.mem = s.mem ∧ u.threads = s.threads
        ∧ u.helben.log.head? = some { nanos := s.cycle * 50 / 47, code := code, unit := unit, handle := 0, v1 := v1, v2 := v2 }
      (∀ line, line * 32 < 0x3000000000 →
        let place := BitVec.ofNat 64 (line * 32)
        (∃ u, exec (.dramScrub { lines := [line], corrected := [], sram := [] }) s = .next u ∧ u.isBad (line * 32) 1 = true
          ∧ logged u .uncorrectable (BitVec.ofNat 16 (dieOfPa (line * 32))) place 0)
        ∧ ∃ u, exec (.dramScrub { lines := [], corrected := [line], sram := [] }) s = .next u ∧ u.bad = s.bad ∧ logged u .corrected (BitVec.ofNat 16 (dieOfPa (line * 32))) place 0)
      ∧ ∀ w, w < 144 * 2 ^ 19 → ∃ u, exec (.dramScrub { lines := [], corrected := [], sram := [w] }) s = .next u ∧ u.isBadSram (w * 8) 8 = true ∧ u.bad = s.bad
        ∧ logged u .uncorrectable (unitOf (handleOf (w / 2 ^ 19 * 32) 0)) (BitVec.ofNat 64 (w * 8)) 1
        ∧ ∃ u, exec (.dramScrub { lines := [], corrected := [], sram := [], correctedSram := [w] }) s = .next u ∧ u.badSram = s.badSram
          ∧ logged u .corrected (unitOf (handleOf (w / 2 ^ 19 * 32) 0)) (BitVec.ofNat 64 (w * 8)) 1)
    ∧ (∀ c, c < 144 → (∃ u, exec (.partRetirement (.cluster c)) s = .next u ∧ (u.cluster c).retired = true ∧ (u.cluster c).partId = 0
        ∧ ∀ t x k, s.threads = [(t, x)] → x.place = .slot k → x.evalOf = none → s.helben.journal = [] →
          let open_ := x.head ≠ none ∨ (∃ r, x.wait = some (.atom r)) ∨ ∃ r, x.wait = some (.smerge r)
          (∀ core, (u.core core).fifo = (s.core core).fifo ∧ (clusterOfCore core = c → (u.core core).deque = []))
          ∧ (clusterOfCore x.core ≠ c → u.threads = [(t, x)])
          ∧ (clusterOfCore x.core = c → ¬ open_ → u.threads = [])
          ∧ (clusterOfCore x.core = c → open_ →
            u.threads = [(t, { x with pending := x.pending ++ [{ cause := .machineCheck, val := 0 }] })]))
      ∧ ∃ u, exec (.retirementLifted (.cluster c)) s = .next u ∧ u.cluster c = { s.cluster c with retired := false } ∧ u.threads = s.threads)
    ∧ (∀ d i, d < 4 → i < (if d < 2 then 64 else 128) → s.threads = [] →
      (∃ u, exec (.partRetirement (.slice d i)) s = .next u ∧ i ∈ (u.die d).slices ∧ u.mem = s.mem)
      ∧ ∃ u, exec (.retirementLifted (.slice d i)) s = .next u ∧ i ∉ (u.die d).slices)
    ∧ (∀ (j : Journal) (core : Nat), s.helben.journal = [j] → j.phase = 1 → (∀ p ∈ s.threads, p.2.lctx.toNat ≠ j.lctx) → core = j.launch.core →
      engineRuns s core = true → s.clusters = [] → (∀ p ∈ s.cores, p.2.deque = []) → (s.core core).deqspill = 0 →
      ∃ u, exec (.launchReplay j.lctx) s = .next u ∧ u.launches.find j.lctx = some j.launch ∧ u.threads = s.threads ∧ u.mem = s.mem
        ∧ u.helben.journal = [{ j with phase := 2 }]
        ∧ (u.core core).deque = [{ kind := .range 0 j.launch.total, entry := j.launch.hdr.entry, arg := j.launch.hdr.arg, x11 := j.launch.x11,
                                   wid := 0, widself := 0, prio := 0, mult := 1, lctx := j.lctx }])
    ∧ (∀ (core pool pa : Nat) (k : CtxCsrs), (s.core core).brokerOf = none → (s.core core).broker = [] → s.mem.readLE pool 4 = 1 →
      brokerEntry s (brokerCx core k) pool 0 = some pa → s.mem.readLE (pool + 24) 4 < 2 ^ 32 - 1 →
      let u := refillCache s core pool k
      (u.core core).broker = [BitVec.ofNat 64 (s.mem.readLE pa 8)] ∧ (u.core core).brokerOf = some (pool, k) ∧ u.mem.readLE pool 4 = 0
        ∧ u.mem.readLE (pool + 24) 4 = s.mem.readLE (pool + 24) 4 + 1 ∧ u.threads = s.threads
        ∧ ∀ x, (x < pool ∨ pool + 4 ≤ x) → (x < pool + 24 ∨ pool + 28 ≤ x) → u.mem.read x = s.mem.read x)
    ∧ (∀ (t pool : Nat) (th : Thread) (d a : Reg) (cow : Bool), s.thread t = some th → th.wait = some (.broker pool cow d a) →
      let s1 := if s.mem.readLE (pool + 20) 4 % 2 = 1 then refillCache s th.core pool (s.csrsOf th) else s
      let th1 := { th with wait := none }
      let s2 := { s1.putThread t th1 with cur := t }
      let draw := if cow then kvCow s2 th1 d a else kvTake s2 th1 d a
      (∀ s3, draw = .ok s3 → exec (.brokerRequest t) s = .next { s3 with cur := s.cur })
      ∧ (∀ tr, draw = .error (some tr) → exec (.brokerRequest t) s = .next { s2.takeTrap t tr with cur := s.cur })
      ∧ (draw = .error none → exec (.brokerRequest t) s = .next s))
    ∧ (∀ (pool root : Word) (e : TlbEntry), walk s none 0 root (pool.extractLsb' 0 52).toNat = .leaf e → pool.toNat % 64 = 0 →
      let pa := e.pa (pool.extractLsb' 0 52).toNat
      ownedAt s true pa 64 = false →
      (poolAt s pool { ptr := pool, loc := .dram pa, hit := none, win := 0 }).2 = true → (∀ p ∈ s.cores, p.2.brokerOf = none) →
      (∀ p ∈ s.helben.shadows, ∀ q ∈ p.2.cores, q.2.brokerOf = none) →
      ∀ set : Bool, ∃ u, exec (.brokerFlagChange pool root set) s = .next u ∧ u.mem.readLE (pa + 20) 4 = (if set then 1 else 0)
        ∧ (∀ x, (x < pa + 20 ∨ pa + 24 ≤ x) → u.mem.read x = s.mem.read x) ∧ u.threads = s.threads)
end

