-- ==== Sys2Proof/Laws/Memory.lean ====
section
/-!
SUPPORT. The laws of sparse tables and of memory: a read after a write, and the canonical form, which every memory operation keeps.
-/
namespace Sys2Proof.Machine

/-! ### Sparse tables -/

@[simp] theorem SMap.find_put_same {α : Type} (m : SMap α) (k : Nat) (v : α) : (SMap.put m k v).find k = some v := by
  induction m with
  | nil => simp [SMap.put, SMap.find]
  | cons p rest ih =>
    obtain ⟨a, w⟩ := p
    unfold SMap.put
    split
    · simp [SMap.find]
    · split
      · simp_all [SMap.find]
      · rename_i h1 h2
        simp only [SMap.find]
        rw [if_neg (by omega)]
        exact ih

theorem SMap.find_put_other {α : Type} (m : SMap α) (k j : Nat) (v : α) (h : j ≠ k) :
    (SMap.put m k v).find j = m.find j := by
  induction m with
  | nil => simp [SMap.put, SMap.find, h.symm]
  | cons p rest ih =>
    obtain ⟨a, w⟩ := p
    unfold SMap.put
    split
    · simp [SMap.find, h.symm]
    · split
      · rename_i h2
        simp [SMap.find, show a ≠ j from fun e => h (by omega)]
      · simp only [SMap.find, ih]

theorem SMap.find_drop_other {α : Type} (m : SMap α) (k j : Nat) (h : j ≠ k) : (SMap.drop m k).find j = m.find j := by
  induction m with
  | nil => rfl
  | cons p rest ih =>
    obtain ⟨a, w⟩ := p
    unfold SMap.drop
    split
    · simp [SMap.find, show a ≠ j by omega]
    · simp [SMap.find, ih]

/-- A table whose keys rise strictly, all of them at least `lo`. -/
def SMap.sortedFrom {α : Type} : Nat → SMap α → Prop
  | _, [] => True
  | lo, (k, _) :: rest => lo ≤ k ∧ SMap.sortedFrom (k + 1) rest

theorem SMap.sortedFrom_mono {α : Type} {lo hi : Nat} {m : SMap α} (h : SMap.sortedFrom hi m) (l : lo ≤ hi) :
    SMap.sortedFrom lo m := by
  cases m with
  | nil => trivial
  | cons p rest => exact ⟨Nat.le_trans l h.1, h.2⟩

theorem SMap.sortedFrom_put {α : Type} {m : SMap α} {lo k : Nat} (v : α) (h : SMap.sortedFrom lo m) (l : lo ≤ k) :
    SMap.sortedFrom lo (SMap.put m k v) := by
  induction m generalizing lo with
  | nil => exact ⟨l, trivial⟩
  | cons p rest ih =>
    obtain ⟨a, w⟩ := p
    obtain ⟨h1, h2⟩ := h
    unfold SMap.put
    split
    · exact ⟨l, by omega, h2⟩
    · split
      · exact ⟨h1, h2⟩
      · exact ⟨h1, ih h2 (by omega)⟩

/-! ### Memory: reads and writes -/

theorem Memory.read_below {m : Memory} {lo a : Nat} (h : Memory.wfFrom lo m = true) (l : a < lo) : m.read a = Memory.blank := by
  induction m generalizing lo with
  | nil => rfl
  | cons p rest ih =>
    obtain ⟨k, v⟩ := p
    simp only [Memory.wfFrom, Bool.and_eq_true, decide_eq_true_eq] at h
    simp only [Memory.read]
    rw [if_neg (by omega)]
    exact ih h.2 (by omega)

/-- A read after a write to the same address gives the byte written. -/
theorem Memory.read_write_same {m : Memory} {lo : Nat} (h : Memory.wfFrom lo m = true) (a : Nat) (b : Byte) :
    (m.write a b).read a = b := by
  induction m generalizing lo with
  | nil =>
    unfold Memory.write
    split
    · simp_all [Memory.read]
    · simp [Memory.read]
  | cons p rest ih =>
    obtain ⟨k, v⟩ := p
    simp only [Memory.wfFrom, Bool.and_eq_true, decide_eq_true_eq] at h
    unfold Memory.write
    split
    · split
      · rename_i h2
        simp only [Memory.read]
        rw [if_neg (by omega), Memory.read_below h.2 (by omega), h2]
      · simp [Memory.read]
    · split
      · split
        · rename_i h1 h2
          rw [Memory.read_below h.2 (by omega), h2]
        · rename_i h1 _
          simp [Memory.read, h1]
      · simp only [Memory.read]
        rw [if_neg (by omega)]
        exact ih h.2

/-- A write leaves every other address alone. -/
theorem Memory.read_write_other (m : Memory) (a c : Nat) (b : Byte) (h : c ≠ a) : (m.write a b).read c = m.read c := by
  induction m with
  | nil =>
    unfold Memory.write
    split
    · rfl
    · simp [Memory.read, show a ≠ c by omega]
  | cons p rest ih =>
    obtain ⟨k, v⟩ := p
    unfold Memory.write
    split
    · split
      · rfl
      · simp [Memory.read, show a ≠ c by omega]
    · split
      · split
        · simp [Memory.read, show k ≠ c by omega]
        · simp [Memory.read, show k ≠ c by omega]
      · simp [Memory.read, ih]

/-- A store of n bytes leaves every address outside them alone. -/
theorem Memory.read_writeLE_other (m : Memory) (a n v c : Nat) (h : c < a ∨ a + n ≤ c) :
    (m.writeLE a n v).read c = m.read c := by
  induction n generalizing m a v with
  | zero => rfl
  | succ n ih =>
    simp only [Memory.writeLE]
    rw [ih _ _ _ (by omega), Memory.read_write_other _ _ _ _ (by omega)]

/-! ### The canonical form -/

theorem Memory.wfFrom_mono {lo hi : Nat} {m : Memory} (h : Memory.wfFrom hi m = true) (l : lo ≤ hi) :
    Memory.wfFrom lo m = true := by
  cases m with
  | nil => rfl
  | cons p rest =>
    simp only [Memory.wfFrom, Bool.and_eq_true, decide_eq_true_eq] at h ⊢
    exact ⟨⟨by omega, h.1.2⟩, h.2⟩

theorem Memory.wfFrom_write {m : Memory} {lo a : Nat} (b : Byte) (h : Memory.wfFrom lo m = true) (l : lo ≤ a) :
    Memory.wfFrom lo (m.write a b) = true := by
  induction m generalizing lo with
  | nil =>
    unfold Memory.write
    split
    · rfl
    · simp_all [Memory.wfFrom]
  | cons p rest ih =>
    obtain ⟨k, v⟩ := p
    have h0 := h
    simp only [Memory.wfFrom, Bool.and_eq_true, decide_eq_true_eq] at h
    obtain ⟨⟨h1, h2⟩, h3⟩ := h
    unfold Memory.write
    split
    · split
      · exact h0
      · rename_i h4 h5
        simp only [Memory.wfFrom, Bool.and_eq_true, decide_eq_true_eq]
        exact ⟨⟨l, h5⟩, ⟨by omega, h2⟩, h3⟩
    · split
      · split
        · exact Memory.wfFrom_mono h3 (by omega)
        · rename_i h5
          simp only [Memory.wfFrom, Bool.and_eq_true, decide_eq_true_eq]
          exact ⟨⟨h1, h5⟩, h3⟩
      · simp only [Memory.wfFrom, Bool.and_eq_true, decide_eq_true_eq]
        exact ⟨⟨h1, h2⟩, ih h3 (by omega)⟩

/-- A write of one byte keeps the canonical form. -/
theorem Memory.wf_write {m : Memory} (h : m.wf = true) (a : Nat) (b : Byte) : (m.write a b).wf = true :=
  Memory.wfFrom_write b h (Nat.zero_le a)

/-- A write of n bytes keeps the canonical form. -/
theorem Memory.wf_writeLE {m : Memory} (h : m.wf = true) (a n v : Nat) : (m.writeLE a n v).wf = true := by
  induction n generalizing m a v with
  | zero => exact h
  | succ n ih => exact ih (Memory.wf_write h _ _) _ _

theorem Memory.wfFrom_filter {m : Memory} {lo : Nat} (p : Host.Cell → Bool) (h : Memory.wfFrom lo m = true) :
    Memory.wfFrom lo (m.filter p) = true := by
  induction m generalizing lo with
  | nil => rfl
  | cons c rest ih =>
    obtain ⟨k, v⟩ := c
    simp only [Memory.wfFrom, Bool.and_eq_true, decide_eq_true_eq] at h
    obtain ⟨⟨h1, h2⟩, h3⟩ := h
    rw [List.filter_cons]
    split
    · simp only [Memory.wfFrom, Bool.and_eq_true, decide_eq_true_eq]
      exact ⟨⟨h1, h2⟩, ih h3⟩
    · exact Memory.wfFrom_mono (ih h3) (by omega)

/-- Dropping cells keeps the canonical form. -/
theorem Memory.wf_filter {m : Memory} (p : Host.Cell → Bool) (h : m.wf = true) : Memory.wf (m.filter p) = true :=
  Memory.wfFrom_filter p h

/-- A memory in canonical form, all of its addresses below a bound. -/
def Memory.below (hi : Nat) (m : Memory) : Prop := ∀ c ∈ m, c.1 < hi

theorem Memory.wfFrom_append {m n : Memory} {lo mid : Nat} (hm : Memory.wfFrom lo m = true) (hn : Memory.wfFrom mid n = true)
    (l : lo ≤ mid) (hb : Memory.below mid m) : Memory.wfFrom lo (m ++ n) = true := by
  induction m generalizing lo with
  | nil => exact Memory.wfFrom_mono hn l
  | cons c rest ih =>
    obtain ⟨k, v⟩ := c
    simp only [Memory.wfFrom, Bool.and_eq_true, decide_eq_true_eq, List.cons_append] at hm ⊢
    exact ⟨hm.1, ih hm.2 (by have := hb (k, v) (by simp); simp at this; omega) (fun c hc => hb c (by simp [hc]))⟩

/-! ### Tables whose keys rise -/

/-- A key of a table after a write is the written one or an old one. -/
theorem SMap.key_of_put {α : Type} {m : SMap α} {k : Nat} {v : α} {p : Nat × α} (h : p ∈ SMap.put m k v) : p = (k, v) ∨ p ∈ m := by
  induction m with
  | nil => simp_all [SMap.put]
  | cons q rest ih =>
    obtain ⟨a, w⟩ := q
    unfold SMap.put at h
    split at h
    · rcases List.mem_cons.mp h with h | h
      · exact .inl h
      · exact .inr h
    · split at h
      · rename_i e
        rcases List.mem_cons.mp h with h | h
        · exact .inl (by simp [h, e])
        · exact .inr (List.mem_cons_of_mem _ h)
      · rcases List.mem_cons.mp h with h | h
        · exact .inr (by simp [h])
        · rcases ih h with h | h
          · exact .inl h
          · exact .inr (List.mem_cons_of_mem _ h)

/-- A write keeps the keys rising. -/
theorem SMap.rises_put {α : Type} {m : SMap α} (k : Nat) (v : α) (h : (m.map (fun p => p.1)).Pairwise (fun a b => a < b)) :
    ((SMap.put m k v).map (fun p => p.1)).Pairwise (fun a b => a < b) := by
  induction m with
  | nil => simp [SMap.put]
  | cons q rest ih =>
    obtain ⟨a, w⟩ := q
    simp only [List.map_cons, List.pairwise_cons, List.mem_map, forall_exists_index, and_imp, forall_apply_eq_imp_iff₂] at h
    unfold SMap.put
    split
    · rename_i l
      simp only [List.map_cons, List.pairwise_cons, List.mem_cons, List.mem_map]
      refine ⟨?_, ?_, h.2⟩
      · rintro x (rfl | ⟨p, hp, rfl⟩)
        · exact l
        · exact Nat.lt_trans l (h.1 p hp)
      · rintro x ⟨p, hp, rfl⟩
        exact h.1 p hp
    · split
      · simp only [List.map_cons, List.pairwise_cons, List.mem_map]
        refine ⟨?_, h.2⟩
        rintro x ⟨p, hp, rfl⟩
        exact h.1 p hp
      · rename_i l e
        simp only [List.map_cons, List.pairwise_cons, List.mem_map]
        refine ⟨?_, ih h.2⟩
        rintro x ⟨p, hp, rfl⟩
        rcases SMap.key_of_put hp with rfl | hp
        · exact Nat.lt_of_le_of_ne (Nat.le_of_not_lt l) (fun q => e q.symm)
        · exact h.1 p hp

/-- A selection keeps the keys rising. -/
theorem SMap.rises_sublist {α : Type} {m n : SMap α} (s : n.Sublist m) (h : (m.map (fun p => p.1)).Pairwise (fun a b => a < b)) :
    (n.map (fun p => p.1)).Pairwise (fun a b => a < b) :=
  h.sublist (s.map _)

theorem SMap.drop_sublist {α : Type} (m : SMap α) (k : Nat) : (SMap.drop m k).Sublist m := by
  induction m with
  | nil => exact List.Sublist.refl _
  | cons q rest ih =>
    obtain ⟨a, w⟩ := q
    unfold SMap.drop
    split
    · exact List.sublist_cons_self _ _
    · exact ih.cons_cons _

theorem SMap.rises_drop {α : Type} {m : SMap α} (k : Nat) (h : (m.map (fun p => p.1)).Pairwise (fun a b => a < b)) :
    ((SMap.drop m k).map (fun p => p.1)).Pairwise (fun a b => a < b) := SMap.rises_sublist (SMap.drop_sublist m k) h

theorem SMap.rises_filter {α : Type} {m : SMap α} (p : Nat × α → Bool) (h : (m.map (fun p => p.1)).Pairwise (fun a b => a < b)) :
    ((m.filter p).map (fun p => p.1)).Pairwise (fun a b => a < b) := SMap.rises_sublist List.filter_sublist h

/-- A map that keeps every key keeps them rising. -/
theorem SMap.rises_map {α β : Type} {m : SMap α} (f : Nat × α → Nat × β) (k : ∀ p, (f p).1 = p.1)
    (h : (m.map (fun p => p.1)).Pairwise (fun a b => a < b)) : ((m.map f).map (fun p => p.1)).Pairwise (fun a b => a < b) := by
  rw [List.map_map, show ((fun p : Nat × β => p.1) ∘ f) = (fun p => p.1) from funext k]
  exact h

end Sys2Proof.Machine
end

