-- ==== Sys2Proof/Laws/State.lean ====
section
/-!
SUPPORT. What each update of the state and of a thread leaves of every field: one lemma per field per update.
-/
namespace Sys2Proof.Machine

/-! ### `State.putThread` -/

@[simp] theorem State.putThread_cycle (s : State) (t : Nat) (x : Thread) : (s.putThread t x).cycle = s.cycle := rfl
@[simp] theorem State.putThread_cur (s : State) (t : Nat) (x : Thread) : (s.putThread t x).cur = s.cur := rfl
@[simp] theorem State.putThread_issued (s : State) (t : Nat) (x : Thread) : (s.putThread t x).issued = s.issued := rfl
@[simp] theorem State.putThread_phase (s : State) (t : Nat) (x : Thread) : (s.putThread t x).phase = s.phase := rfl
@[simp] theorem State.putThread_rot (s : State) (t : Nat) (x : Thread) : (s.putThread t x).rot = s.rot := rfl
@[simp] theorem State.putThread_agenda (s : State) (t : Nat) (x : Thread) : (s.putThread t x).agenda = s.agenda := rfl
@[simp] theorem State.putThread_free (s : State) (t : Nat) (x : Thread) : (s.putThread t x).free = s.free := rfl
@[simp] theorem State.putThread_nextTid (s : State) (t : Nat) (x : Thread) : (s.putThread t x).nextTid = s.nextTid := rfl
@[simp] theorem State.putThread_seq (s : State) (t : Nat) (x : Thread) : (s.putThread t x).seq = s.seq := rfl
@[simp] theorem State.putThread_cores (s : State) (t : Nat) (x : Thread) : (s.putThread t x).cores = s.cores := rfl
@[simp] theorem State.putThread_clusters (s : State) (t : Nat) (x : Thread) : (s.putThread t x).clusters = s.clusters := rfl
@[simp] theorem State.putThread_dies (s : State) (t : Nat) (x : Thread) : (s.putThread t x).dies = s.dies := rfl
@[simp] theorem State.putThread_launches (s : State) (t : Nat) (x : Thread) : (s.putThread t x).launches = s.launches := rfl
@[simp] theorem State.putThread_mem (s : State) (t : Nat) (x : Thread) : (s.putThread t x).mem = s.mem := rfl
@[simp] theorem State.putThread_sram (s : State) (t : Nat) (x : Thread) : (s.putThread t x).sram = s.sram := rfl
@[simp] theorem State.putThread_tags (s : State) (t : Nat) (x : Thread) : (s.putThread t x).tags = s.tags := rfl
@[simp] theorem State.putThread_bad (s : State) (t : Nat) (x : Thread) : (s.putThread t x).bad = s.bad := rfl
@[simp] theorem State.putThread_badSram (s : State) (t : Nat) (x : Thread) : (s.putThread t x).badSram = s.badSram := rfl
@[simp] theorem State.putThread_evals (s : State) (t : Nat) (x : Thread) : (s.putThread t x).evals = s.evals := rfl
@[simp] theorem State.putThread_late (s : State) (t : Nat) (x : Thread) : (s.putThread t x).late = s.late := rfl
@[simp] theorem State.putThread_ended (s : State) (t : Nat) (x : Thread) : (s.putThread t x).ended = s.ended := rfl
@[simp] theorem State.putThread_dir (s : State) (t : Nat) (x : Thread) : (s.putThread t x).dir = s.dir := rfl
@[simp] theorem State.putThread_helben (s : State) (t : Nat) (x : Thread) : (s.putThread t x).helben = s.helben := rfl
@[simp] theorem State.putThread_host (s : State) (t : Nat) (x : Thread) : (s.putThread t x).host = s.host := rfl
@[simp] theorem State.putThread_fabric (s : State) (t : Nat) (x : Thread) : (s.putThread t x).fabric = s.fabric := rfl

/-! ### `State.dropThread` -/

@[simp] theorem State.dropThread_cycle (s : State) (t : Nat) : (s.dropThread t).cycle = s.cycle := rfl
@[simp] theorem State.dropThread_cur (s : State) (t : Nat) : (s.dropThread t).cur = s.cur := rfl
@[simp] theorem State.dropThread_issued (s : State) (t : Nat) : (s.dropThread t).issued = s.issued := rfl
@[simp] theorem State.dropThread_phase (s : State) (t : Nat) : (s.dropThread t).phase = s.phase := rfl
@[simp] theorem State.dropThread_rot (s : State) (t : Nat) : (s.dropThread t).rot = s.rot := rfl
@[simp] theorem State.dropThread_agenda (s : State) (t : Nat) : (s.dropThread t).agenda = s.agenda := rfl
@[simp] theorem State.dropThread_free (s : State) (t : Nat) : (s.dropThread t).free = s.free := rfl
@[simp] theorem State.dropThread_nextTid (s : State) (t : Nat) : (s.dropThread t).nextTid = s.nextTid := rfl
@[simp] theorem State.dropThread_seq (s : State) (t : Nat) : (s.dropThread t).seq = s.seq := rfl
@[simp] theorem State.dropThread_cores (s : State) (t : Nat) : (s.dropThread t).cores = s.cores := rfl
@[simp] theorem State.dropThread_clusters (s : State) (t : Nat) : (s.dropThread t).clusters = s.clusters := rfl
@[simp] theorem State.dropThread_dies (s : State) (t : Nat) : (s.dropThread t).dies = s.dies := rfl
@[simp] theorem State.dropThread_launches (s : State) (t : Nat) : (s.dropThread t).launches = s.launches := rfl
@[simp] theorem State.dropThread_mem (s : State) (t : Nat) : (s.dropThread t).mem = s.mem := rfl
@[simp] theorem State.dropThread_sram (s : State) (t : Nat) : (s.dropThread t).sram = s.sram := rfl
@[simp] theorem State.dropThread_tags (s : State) (t : Nat) : (s.dropThread t).tags = s.tags := rfl
@[simp] theorem State.dropThread_bad (s : State) (t : Nat) : (s.dropThread t).bad = s.bad := rfl
@[simp] theorem State.dropThread_badSram (s : State) (t : Nat) : (s.dropThread t).badSram = s.badSram := rfl
@[simp] theorem State.dropThread_evals (s : State) (t : Nat) : (s.dropThread t).evals = s.evals := rfl
@[simp] theorem State.dropThread_late (s : State) (t : Nat) : (s.dropThread t).late = s.late := rfl
@[simp] theorem State.dropThread_ended (s : State) (t : Nat) : (s.dropThread t).ended = s.ended := rfl
@[simp] theorem State.dropThread_dir (s : State) (t : Nat) : (s.dropThread t).dir = s.dir := rfl
@[simp] theorem State.dropThread_helben (s : State) (t : Nat) : (s.dropThread t).helben = s.helben := rfl
@[simp] theorem State.dropThread_host (s : State) (t : Nat) : (s.dropThread t).host = s.host := rfl
@[simp] theorem State.dropThread_fabric (s : State) (t : Nat) : (s.dropThread t).fabric = s.fabric := rfl

/-! ### `State.putCore` -/

@[simp] theorem State.putCore_cycle (s : State) (c : Nat) (x : Core) : (s.putCore c x).cycle = s.cycle := rfl
@[simp] theorem State.putCore_cur (s : State) (c : Nat) (x : Core) : (s.putCore c x).cur = s.cur := rfl
@[simp] theorem State.putCore_issued (s : State) (c : Nat) (x : Core) : (s.putCore c x).issued = s.issued := rfl
@[simp] theorem State.putCore_phase (s : State) (c : Nat) (x : Core) : (s.putCore c x).phase = s.phase := rfl
@[simp] theorem State.putCore_rot (s : State) (c : Nat) (x : Core) : (s.putCore c x).rot = s.rot := rfl
@[simp] theorem State.putCore_agenda (s : State) (c : Nat) (x : Core) : (s.putCore c x).agenda = s.agenda := rfl
@[simp] theorem State.putCore_free (s : State) (c : Nat) (x : Core) : (s.putCore c x).free = s.free := rfl
@[simp] theorem State.putCore_nextTid (s : State) (c : Nat) (x : Core) : (s.putCore c x).nextTid = s.nextTid := rfl
@[simp] theorem State.putCore_seq (s : State) (c : Nat) (x : Core) : (s.putCore c x).seq = s.seq := rfl
@[simp] theorem State.putCore_threads (s : State) (c : Nat) (x : Core) : (s.putCore c x).threads = s.threads := rfl
@[simp] theorem State.putCore_clusters (s : State) (c : Nat) (x : Core) : (s.putCore c x).clusters = s.clusters := rfl
@[simp] theorem State.putCore_dies (s : State) (c : Nat) (x : Core) : (s.putCore c x).dies = s.dies := rfl
@[simp] theorem State.putCore_launches (s : State) (c : Nat) (x : Core) : (s.putCore c x).launches = s.launches := rfl
@[simp] theorem State.putCore_mem (s : State) (c : Nat) (x : Core) : (s.putCore c x).mem = s.mem := rfl
@[simp] theorem State.putCore_sram (s : State) (c : Nat) (x : Core) : (s.putCore c x).sram = s.sram := rfl
@[simp] theorem State.putCore_tags (s : State) (c : Nat) (x : Core) : (s.putCore c x).tags = s.tags := rfl
@[simp] theorem State.putCore_bad (s : State) (c : Nat) (x : Core) : (s.putCore c x).bad = s.bad := rfl
@[simp] theorem State.putCore_badSram (s : State) (c : Nat) (x : Core) : (s.putCore c x).badSram = s.badSram := rfl
@[simp] theorem State.putCore_evals (s : State) (c : Nat) (x : Core) : (s.putCore c x).evals = s.evals := rfl
@[simp] theorem State.putCore_late (s : State) (c : Nat) (x : Core) : (s.putCore c x).late = s.late := rfl
@[simp] theorem State.putCore_ended (s : State) (c : Nat) (x : Core) : (s.putCore c x).ended = s.ended := rfl
@[simp] theorem State.putCore_dir (s : State) (c : Nat) (x : Core) : (s.putCore c x).dir = s.dir := rfl
@[simp] theorem State.putCore_helben (s : State) (c : Nat) (x : Core) : (s.putCore c x).helben = s.helben := rfl
@[simp] theorem State.putCore_host (s : State) (c : Nat) (x : Core) : (s.putCore c x).host = s.host := rfl
@[simp] theorem State.putCore_fabric (s : State) (c : Nat) (x : Core) : (s.putCore c x).fabric = s.fabric := rfl

/-! ### `State.putCluster` -/

@[simp] theorem State.putCluster_cycle (s : State) (c : Nat) (x : Cluster) : (s.putCluster c x).cycle = s.cycle := rfl
@[simp] theorem State.putCluster_cur (s : State) (c : Nat) (x : Cluster) : (s.putCluster c x).cur = s.cur := rfl
@[simp] theorem State.putCluster_issued (s : State) (c : Nat) (x : Cluster) : (s.putCluster c x).issued = s.issued := rfl
@[simp] theorem State.putCluster_phase (s : State) (c : Nat) (x : Cluster) : (s.putCluster c x).phase = s.phase := rfl
@[simp] theorem State.putCluster_rot (s : State) (c : Nat) (x : Cluster) : (s.putCluster c x).rot = s.rot := rfl
@[simp] theorem State.putCluster_agenda (s : State) (c : Nat) (x : Cluster) : (s.putCluster c x).agenda = s.agenda := rfl
@[simp] theorem State.putCluster_free (s : State) (c : Nat) (x : Cluster) : (s.putCluster c x).free = s.free := rfl
@[simp] theorem State.putCluster_nextTid (s : State) (c : Nat) (x : Cluster) : (s.putCluster c x).nextTid = s.nextTid := rfl
@[simp] theorem State.putCluster_seq (s : State) (c : Nat) (x : Cluster) : (s.putCluster c x).seq = s.seq := rfl
@[simp] theorem State.putCluster_threads (s : State) (c : Nat) (x : Cluster) : (s.putCluster c x).threads = s.threads := rfl
@[simp] theorem State.putCluster_cores (s : State) (c : Nat) (x : Cluster) : (s.putCluster c x).cores = s.cores := rfl
@[simp] theorem State.putCluster_dies (s : State) (c : Nat) (x : Cluster) : (s.putCluster c x).dies = s.dies := rfl
@[simp] theorem State.putCluster_launches (s : State) (c : Nat) (x : Cluster) : (s.putCluster c x).launches = s.launches := rfl
@[simp] theorem State.putCluster_mem (s : State) (c : Nat) (x : Cluster) : (s.putCluster c x).mem = s.mem := rfl
@[simp] theorem State.putCluster_sram (s : State) (c : Nat) (x : Cluster) : (s.putCluster c x).sram = s.sram := rfl
@[simp] theorem State.putCluster_tags (s : State) (c : Nat) (x : Cluster) : (s.putCluster c x).tags = s.tags := rfl
@[simp] theorem State.putCluster_bad (s : State) (c : Nat) (x : Cluster) : (s.putCluster c x).bad = s.bad := rfl
@[simp] theorem State.putCluster_badSram (s : State) (c : Nat) (x : Cluster) : (s.putCluster c x).badSram = s.badSram := rfl
@[simp] theorem State.putCluster_evals (s : State) (c : Nat) (x : Cluster) : (s.putCluster c x).evals = s.evals := rfl
@[simp] theorem State.putCluster_late (s : State) (c : Nat) (x : Cluster) : (s.putCluster c x).late = s.late := rfl
@[simp] theorem State.putCluster_ended (s : State) (c : Nat) (x : Cluster) : (s.putCluster c x).ended = s.ended := rfl
@[simp] theorem State.putCluster_dir (s : State) (c : Nat) (x : Cluster) : (s.putCluster c x).dir = s.dir := rfl
@[simp] theorem State.putCluster_helben (s : State) (c : Nat) (x : Cluster) : (s.putCluster c x).helben = s.helben := rfl
@[simp] theorem State.putCluster_host (s : State) (c : Nat) (x : Cluster) : (s.putCluster c x).host = s.host := rfl
@[simp] theorem State.putCluster_fabric (s : State) (c : Nat) (x : Cluster) : (s.putCluster c x).fabric = s.fabric := rfl

/-! ### `State.putDie` -/

@[simp] theorem State.putDie_cycle (s : State) (d : Nat) (x : Die) : (s.putDie d x).cycle = s.cycle := rfl
@[simp] theorem State.putDie_cur (s : State) (d : Nat) (x : Die) : (s.putDie d x).cur = s.cur := rfl
@[simp] theorem State.putDie_issued (s : State) (d : Nat) (x : Die) : (s.putDie d x).issued = s.issued := rfl
@[simp] theorem State.putDie_phase (s : State) (d : Nat) (x : Die) : (s.putDie d x).phase = s.phase := rfl
@[simp] theorem State.putDie_rot (s : State) (d : Nat) (x : Die) : (s.putDie d x).rot = s.rot := rfl
@[simp] theorem State.putDie_agenda (s : State) (d : Nat) (x : Die) : (s.putDie d x).agenda = s.agenda := rfl
@[simp] theorem State.putDie_free (s : State) (d : Nat) (x : Die) : (s.putDie d x).free = s.free := rfl
@[simp] theorem State.putDie_nextTid (s : State) (d : Nat) (x : Die) : (s.putDie d x).nextTid = s.nextTid := rfl
@[simp] theorem State.putDie_seq (s : State) (d : Nat) (x : Die) : (s.putDie d x).seq = s.seq := rfl
@[simp] theorem State.putDie_threads (s : State) (d : Nat) (x : Die) : (s.putDie d x).threads = s.threads := rfl
@[simp] theorem State.putDie_cores (s : State) (d : Nat) (x : Die) : (s.putDie d x).cores = s.cores := rfl
@[simp] theorem State.putDie_clusters (s : State) (d : Nat) (x : Die) : (s.putDie d x).clusters = s.clusters := rfl
@[simp] theorem State.putDie_launches (s : State) (d : Nat) (x : Die) : (s.putDie d x).launches = s.launches := rfl
@[simp] theorem State.putDie_mem (s : State) (d : Nat) (x : Die) : (s.putDie d x).mem = s.mem := rfl
@[simp] theorem State.putDie_sram (s : State) (d : Nat) (x : Die) : (s.putDie d x).sram = s.sram := rfl
@[simp] theorem State.putDie_tags (s : State) (d : Nat) (x : Die) : (s.putDie d x).tags = s.tags := rfl
@[simp] theorem State.putDie_bad (s : State) (d : Nat) (x : Die) : (s.putDie d x).bad = s.bad := rfl
@[simp] theorem State.putDie_badSram (s : State) (d : Nat) (x : Die) : (s.putDie d x).badSram = s.badSram := rfl
@[simp] theorem State.putDie_evals (s : State) (d : Nat) (x : Die) : (s.putDie d x).evals = s.evals := rfl
@[simp] theorem State.putDie_late (s : State) (d : Nat) (x : Die) : (s.putDie d x).late = s.late := rfl
@[simp] theorem State.putDie_ended (s : State) (d : Nat) (x : Die) : (s.putDie d x).ended = s.ended := rfl
@[simp] theorem State.putDie_dir (s : State) (d : Nat) (x : Die) : (s.putDie d x).dir = s.dir := rfl
@[simp] theorem State.putDie_helben (s : State) (d : Nat) (x : Die) : (s.putDie d x).helben = s.helben := rfl
@[simp] theorem State.putDie_host (s : State) (d : Nat) (x : Die) : (s.putDie d x).host = s.host := rfl
@[simp] theorem State.putDie_fabric (s : State) (d : Nat) (x : Die) : (s.putDie d x).fabric = s.fabric := rfl

/-! ### `State.putLaunch` -/

@[simp] theorem State.putLaunch_cycle (s : State) (l : Nat) (x : Launch) : (s.putLaunch l x).cycle = s.cycle := rfl
@[simp] theorem State.putLaunch_cur (s : State) (l : Nat) (x : Launch) : (s.putLaunch l x).cur = s.cur := rfl
@[simp] theorem State.putLaunch_issued (s : State) (l : Nat) (x : Launch) : (s.putLaunch l x).issued = s.issued := rfl
@[simp] theorem State.putLaunch_phase (s : State) (l : Nat) (x : Launch) : (s.putLaunch l x).phase = s.phase := rfl
@[simp] theorem State.putLaunch_rot (s : State) (l : Nat) (x : Launch) : (s.putLaunch l x).rot = s.rot := rfl
@[simp] theorem State.putLaunch_agenda (s : State) (l : Nat) (x : Launch) : (s.putLaunch l x).agenda = s.agenda := rfl
@[simp] theorem State.putLaunch_free (s : State) (l : Nat) (x : Launch) : (s.putLaunch l x).free = s.free := rfl
@[simp] theorem State.putLaunch_nextTid (s : State) (l : Nat) (x : Launch) : (s.putLaunch l x).nextTid = s.nextTid := rfl
@[simp] theorem State.putLaunch_seq (s : State) (l : Nat) (x : Launch) : (s.putLaunch l x).seq = s.seq := rfl
@[simp] theorem State.putLaunch_threads (s : State) (l : Nat) (x : Launch) : (s.putLaunch l x).threads = s.threads := rfl
@[simp] theorem State.putLaunch_cores (s : State) (l : Nat) (x : Launch) : (s.putLaunch l x).cores = s.cores := rfl
@[simp] theorem State.putLaunch_clusters (s : State) (l : Nat) (x : Launch) : (s.putLaunch l x).clusters = s.clusters := rfl
@[simp] theorem State.putLaunch_dies (s : State) (l : Nat) (x : Launch) : (s.putLaunch l x).dies = s.dies := rfl
@[simp] theorem State.putLaunch_mem (s : State) (l : Nat) (x : Launch) : (s.putLaunch l x).mem = s.mem := rfl
@[simp] theorem State.putLaunch_sram (s : State) (l : Nat) (x : Launch) : (s.putLaunch l x).sram = s.sram := rfl
@[simp] theorem State.putLaunch_tags (s : State) (l : Nat) (x : Launch) : (s.putLaunch l x).tags = s.tags := rfl
@[simp] theorem State.putLaunch_bad (s : State) (l : Nat) (x : Launch) : (s.putLaunch l x).bad = s.bad := rfl
@[simp] theorem State.putLaunch_badSram (s : State) (l : Nat) (x : Launch) : (s.putLaunch l x).badSram = s.badSram := rfl
@[simp] theorem State.putLaunch_evals (s : State) (l : Nat) (x : Launch) : (s.putLaunch l x).evals = s.evals := rfl
@[simp] theorem State.putLaunch_late (s : State) (l : Nat) (x : Launch) : (s.putLaunch l x).late = s.late := rfl
@[simp] theorem State.putLaunch_ended (s : State) (l : Nat) (x : Launch) : (s.putLaunch l x).ended = s.ended := rfl
@[simp] theorem State.putLaunch_dir (s : State) (l : Nat) (x : Launch) : (s.putLaunch l x).dir = s.dir := rfl
@[simp] theorem State.putLaunch_helben (s : State) (l : Nat) (x : Launch) : (s.putLaunch l x).helben = s.helben := rfl
@[simp] theorem State.putLaunch_host (s : State) (l : Nat) (x : Launch) : (s.putLaunch l x).host = s.host := rfl
@[simp] theorem State.putLaunch_fabric (s : State) (l : Nat) (x : Launch) : (s.putLaunch l x).fabric = s.fabric := rfl

/-! ### `State.putBank` -/

@[simp] theorem State.putBank_cycle (s : State) (b : Nat) (x : Bank) : (s.putBank b x).cycle = s.cycle := rfl
@[simp] theorem State.putBank_cur (s : State) (b : Nat) (x : Bank) : (s.putBank b x).cur = s.cur := rfl
@[simp] theorem State.putBank_issued (s : State) (b : Nat) (x : Bank) : (s.putBank b x).issued = s.issued := rfl
@[simp] theorem State.putBank_phase (s : State) (b : Nat) (x : Bank) : (s.putBank b x).phase = s.phase := rfl
@[simp] theorem State.putBank_rot (s : State) (b : Nat) (x : Bank) : (s.putBank b x).rot = s.rot := rfl
@[simp] theorem State.putBank_agenda (s : State) (b : Nat) (x : Bank) : (s.putBank b x).agenda = s.agenda := rfl
@[simp] theorem State.putBank_free (s : State) (b : Nat) (x : Bank) : (s.putBank b x).free = s.free := rfl
@[simp] theorem State.putBank_nextTid (s : State) (b : Nat) (x : Bank) : (s.putBank b x).nextTid = s.nextTid := rfl
@[simp] theorem State.putBank_seq (s : State) (b : Nat) (x : Bank) : (s.putBank b x).seq = s.seq := rfl
@[simp] theorem State.putBank_threads (s : State) (b : Nat) (x : Bank) : (s.putBank b x).threads = s.threads := rfl
@[simp] theorem State.putBank_cores (s : State) (b : Nat) (x : Bank) : (s.putBank b x).cores = s.cores := rfl
@[simp] theorem State.putBank_dies (s : State) (b : Nat) (x : Bank) : (s.putBank b x).dies = s.dies := rfl
@[simp] theorem State.putBank_launches (s : State) (b : Nat) (x : Bank) : (s.putBank b x).launches = s.launches := rfl
@[simp] theorem State.putBank_mem (s : State) (b : Nat) (x : Bank) : (s.putBank b x).mem = s.mem := rfl
@[simp] theorem State.putBank_sram (s : State) (b : Nat) (x : Bank) : (s.putBank b x).sram = s.sram := rfl
@[simp] theorem State.putBank_tags (s : State) (b : Nat) (x : Bank) : (s.putBank b x).tags = s.tags := rfl
@[simp] theorem State.putBank_bad (s : State) (b : Nat) (x : Bank) : (s.putBank b x).bad = s.bad := rfl
@[simp] theorem State.putBank_badSram (s : State) (b : Nat) (x : Bank) : (s.putBank b x).badSram = s.badSram := rfl
@[simp] theorem State.putBank_evals (s : State) (b : Nat) (x : Bank) : (s.putBank b x).evals = s.evals := rfl
@[simp] theorem State.putBank_late (s : State) (b : Nat) (x : Bank) : (s.putBank b x).late = s.late := rfl
@[simp] theorem State.putBank_ended (s : State) (b : Nat) (x : Bank) : (s.putBank b x).ended = s.ended := rfl
@[simp] theorem State.putBank_dir (s : State) (b : Nat) (x : Bank) : (s.putBank b x).dir = s.dir := rfl
@[simp] theorem State.putBank_helben (s : State) (b : Nat) (x : Bank) : (s.putBank b x).helben = s.helben := rfl
@[simp] theorem State.putBank_host (s : State) (b : Nat) (x : Bank) : (s.putBank b x).host = s.host := rfl
@[simp] theorem State.putBank_fabric (s : State) (b : Nat) (x : Bank) : (s.putBank b x).fabric = s.fabric := rfl

/-! ### `State.putBarrier` -/

@[simp] theorem State.putBarrier_cycle (s : State) (c i : Nat) (x : Barrier) : (s.putBarrier c i x).cycle = s.cycle := rfl
@[simp] theorem State.putBarrier_cur (s : State) (c i : Nat) (x : Barrier) : (s.putBarrier c i x).cur = s.cur := rfl
@[simp] theorem State.putBarrier_issued (s : State) (c i : Nat) (x : Barrier) : (s.putBarrier c i x).issued = s.issued := rfl
@[simp] theorem State.putBarrier_phase (s : State) (c i : Nat) (x : Barrier) : (s.putBarrier c i x).phase = s.phase := rfl
@[simp] theorem State.putBarrier_rot (s : State) (c i : Nat) (x : Barrier) : (s.putBarrier c i x).rot = s.rot := rfl
@[simp] theorem State.putBarrier_agenda (s : State) (c i : Nat) (x : Barrier) : (s.putBarrier c i x).agenda = s.agenda := rfl
@[simp] theorem State.putBarrier_free (s : State) (c i : Nat) (x : Barrier) : (s.putBarrier c i x).free = s.free := rfl
@[simp] theorem State.putBarrier_nextTid (s : State) (c i : Nat) (x : Barrier) : (s.putBarrier c i x).nextTid = s.nextTid := rfl
@[simp] theorem State.putBarrier_seq (s : State) (c i : Nat) (x : Barrier) : (s.putBarrier c i x).seq = s.seq := rfl
@[simp] theorem State.putBarrier_threads (s : State) (c i : Nat) (x : Barrier) : (s.putBarrier c i x).threads = s.threads := rfl
@[simp] theorem State.putBarrier_cores (s : State) (c i : Nat) (x : Barrier) : (s.putBarrier c i x).cores = s.cores := rfl
@[simp] theorem State.putBarrier_dies (s : State) (c i : Nat) (x : Barrier) : (s.putBarrier c i x).dies = s.dies := rfl
@[simp] theorem State.putBarrier_launches (s : State) (c i : Nat) (x : Barrier) : (s.putBarrier c i x).launches = s.launches := rfl
@[simp] theorem State.putBarrier_mem (s : State) (c i : Nat) (x : Barrier) : (s.putBarrier c i x).mem = s.mem := rfl
@[simp] theorem State.putBarrier_sram (s : State) (c i : Nat) (x : Barrier) : (s.putBarrier c i x).sram = s.sram := rfl
@[simp] theorem State.putBarrier_tags (s : State) (c i : Nat) (x : Barrier) : (s.putBarrier c i x).tags = s.tags := rfl
@[simp] theorem State.putBarrier_bad (s : State) (c i : Nat) (x : Barrier) : (s.putBarrier c i x).bad = s.bad := rfl
@[simp] theorem State.putBarrier_badSram (s : State) (c i : Nat) (x : Barrier) : (s.putBarrier c i x).badSram = s.badSram := rfl
@[simp] theorem State.putBarrier_evals (s : State) (c i : Nat) (x : Barrier) : (s.putBarrier c i x).evals = s.evals := rfl
@[simp] theorem State.putBarrier_late (s : State) (c i : Nat) (x : Barrier) : (s.putBarrier c i x).late = s.late := rfl
@[simp] theorem State.putBarrier_ended (s : State) (c i : Nat) (x : Barrier) : (s.putBarrier c i x).ended = s.ended := rfl
@[simp] theorem State.putBarrier_dir (s : State) (c i : Nat) (x : Barrier) : (s.putBarrier c i x).dir = s.dir := rfl
@[simp] theorem State.putBarrier_helben (s : State) (c i : Nat) (x : Barrier) : (s.putBarrier c i x).helben = s.helben := rfl
@[simp] theorem State.putBarrier_host (s : State) (c i : Nat) (x : Barrier) : (s.putBarrier c i x).host = s.host := rfl
@[simp] theorem State.putBarrier_fabric (s : State) (c i : Nat) (x : Barrier) : (s.putBarrier c i x).fabric = s.fabric := rfl

/-! ### `State.modHelben` -/

@[simp] theorem State.modHelben_cycle (s : State) (f : Helben → Helben) : (s.modHelben f).cycle = s.cycle := rfl
@[simp] theorem State.modHelben_cur (s : State) (f : Helben → Helben) : (s.modHelben f).cur = s.cur := rfl
@[simp] theorem State.modHelben_issued (s : State) (f : Helben → Helben) : (s.modHelben f).issued = s.issued := rfl
@[simp] theorem State.modHelben_phase (s : State) (f : Helben → Helben) : (s.modHelben f).phase = s.phase := rfl
@[simp] theorem State.modHelben_rot (s : State) (f : Helben → Helben) : (s.modHelben f).rot = s.rot := rfl
@[simp] theorem State.modHelben_agenda (s : State) (f : Helben → Helben) : (s.modHelben f).agenda = s.agenda := rfl
@[simp] theorem State.modHelben_free (s : State) (f : Helben → Helben) : (s.modHelben f).free = s.free := rfl
@[simp] theorem State.modHelben_nextTid (s : State) (f : Helben → Helben) : (s.modHelben f).nextTid = s.nextTid := rfl
@[simp] theorem State.modHelben_seq (s : State) (f : Helben → Helben) : (s.modHelben f).seq = s.seq := rfl
@[simp] theorem State.modHelben_threads (s : State) (f : Helben → Helben) : (s.modHelben f).threads = s.threads := rfl
@[simp] theorem State.modHelben_cores (s : State) (f : Helben → Helben) : (s.modHelben f).cores = s.cores := rfl
@[simp] theorem State.modHelben_clusters (s : State) (f : Helben → Helben) : (s.modHelben f).clusters = s.clusters := rfl
@[simp] theorem State.modHelben_dies (s : State) (f : Helben → Helben) : (s.modHelben f).dies = s.dies := rfl
@[simp] theorem State.modHelben_launches (s : State) (f : Helben → Helben) : (s.modHelben f).launches = s.launches := rfl
@[simp] theorem State.modHelben_mem (s : State) (f : Helben → Helben) : (s.modHelben f).mem = s.mem := rfl
@[simp] theorem State.modHelben_sram (s : State) (f : Helben → Helben) : (s.modHelben f).sram = s.sram := rfl
@[simp] theorem State.modHelben_tags (s : State) (f : Helben → Helben) : (s.modHelben f).tags = s.tags := rfl
@[simp] theorem State.modHelben_bad (s : State) (f : Helben → Helben) : (s.modHelben f).bad = s.bad := rfl
@[simp] theorem State.modHelben_badSram (s : State) (f : Helben → Helben) : (s.modHelben f).badSram = s.badSram := rfl
@[simp] theorem State.modHelben_evals (s : State) (f : Helben → Helben) : (s.modHelben f).evals = s.evals := rfl
@[simp] theorem State.modHelben_late (s : State) (f : Helben → Helben) : (s.modHelben f).late = s.late := rfl
@[simp] theorem State.modHelben_ended (s : State) (f : Helben → Helben) : (s.modHelben f).ended = s.ended := rfl
@[simp] theorem State.modHelben_dir (s : State) (f : Helben → Helben) : (s.modHelben f).dir = s.dir := rfl
@[simp] theorem State.modHelben_host (s : State) (f : Helben → Helben) : (s.modHelben f).host = s.host := rfl
@[simp] theorem State.modHelben_fabric (s : State) (f : Helben → Helben) : (s.modHelben f).fabric = s.fabric := rfl

/-! ### `State.setTag` -/

@[simp] theorem State.setTag_cycle (s : State) (a : Nat) (g : BitVec 2) : (s.setTag a g).cycle = s.cycle := rfl
@[simp] theorem State.setTag_cur (s : State) (a : Nat) (g : BitVec 2) : (s.setTag a g).cur = s.cur := rfl
@[simp] theorem State.setTag_issued (s : State) (a : Nat) (g : BitVec 2) : (s.setTag a g).issued = s.issued := rfl
@[simp] theorem State.setTag_phase (s : State) (a : Nat) (g : BitVec 2) : (s.setTag a g).phase = s.phase := rfl
@[simp] theorem State.setTag_rot (s : State) (a : Nat) (g : BitVec 2) : (s.setTag a g).rot = s.rot := rfl
@[simp] theorem State.setTag_agenda (s : State) (a : Nat) (g : BitVec 2) : (s.setTag a g).agenda = s.agenda := rfl
@[simp] theorem State.setTag_free (s : State) (a : Nat) (g : BitVec 2) : (s.setTag a g).free = s.free := rfl
@[simp] theorem State.setTag_nextTid (s : State) (a : Nat) (g : BitVec 2) : (s.setTag a g).nextTid = s.nextTid := rfl
@[simp] theorem State.setTag_seq (s : State) (a : Nat) (g : BitVec 2) : (s.setTag a g).seq = s.seq := rfl
@[simp] theorem State.setTag_threads (s : State) (a : Nat) (g : BitVec 2) : (s.setTag a g).threads = s.threads := rfl
@[simp] theorem State.setTag_cores (s : State) (a : Nat) (g : BitVec 2) : (s.setTag a g).cores = s.cores := rfl
@[simp] theorem State.setTag_clusters (s : State) (a : Nat) (g : BitVec 2) : (s.setTag a g).clusters = s.clusters := rfl
@[simp] theorem State.setTag_dies (s : State) (a : Nat) (g : BitVec 2) : (s.setTag a g).dies = s.dies := rfl
@[simp] theorem State.setTag_launches (s : State) (a : Nat) (g : BitVec 2) : (s.setTag a g).launches = s.launches := rfl
@[simp] theorem State.setTag_mem (s : State) (a : Nat) (g : BitVec 2) : (s.setTag a g).mem = s.mem := rfl
@[simp] theorem State.setTag_sram (s : State) (a : Nat) (g : BitVec 2) : (s.setTag a g).sram = s.sram := rfl
@[simp] theorem State.setTag_bad (s : State) (a : Nat) (g : BitVec 2) : (s.setTag a g).bad = s.bad := rfl
@[simp] theorem State.setTag_badSram (s : State) (a : Nat) (g : BitVec 2) : (s.setTag a g).badSram = s.badSram := rfl
@[simp] theorem State.setTag_evals (s : State) (a : Nat) (g : BitVec 2) : (s.setTag a g).evals = s.evals := rfl
@[simp] theorem State.setTag_late (s : State) (a : Nat) (g : BitVec 2) : (s.setTag a g).late = s.late := rfl
@[simp] theorem State.setTag_ended (s : State) (a : Nat) (g : BitVec 2) : (s.setTag a g).ended = s.ended := rfl
@[simp] theorem State.setTag_dir (s : State) (a : Nat) (g : BitVec 2) : (s.setTag a g).dir = s.dir := rfl
@[simp] theorem State.setTag_helben (s : State) (a : Nat) (g : BitVec 2) : (s.setTag a g).helben = s.helben := rfl
@[simp] theorem State.setTag_host (s : State) (a : Nat) (g : BitVec 2) : (s.setTag a g).host = s.host := rfl
@[simp] theorem State.setTag_fabric (s : State) (a : Nat) (g : BitVec 2) : (s.setTag a g).fabric = s.fabric := rfl

/-! ### `State.storePa` -/

@[simp] theorem State.storePa_cycle (s : State) (k : Option Nat) (a n v : Nat) : (s.storePa k a n v).cycle = s.cycle := rfl
@[simp] theorem State.storePa_cur (s : State) (k : Option Nat) (a n v : Nat) : (s.storePa k a n v).cur = s.cur := rfl
@[simp] theorem State.storePa_issued (s : State) (k : Option Nat) (a n v : Nat) : (s.storePa k a n v).issued = s.issued := rfl
@[simp] theorem State.storePa_phase (s : State) (k : Option Nat) (a n v : Nat) : (s.storePa k a n v).phase = s.phase := rfl
@[simp] theorem State.storePa_rot (s : State) (k : Option Nat) (a n v : Nat) : (s.storePa k a n v).rot = s.rot := rfl
@[simp] theorem State.storePa_agenda (s : State) (k : Option Nat) (a n v : Nat) : (s.storePa k a n v).agenda = s.agenda := rfl
@[simp] theorem State.storePa_free (s : State) (k : Option Nat) (a n v : Nat) : (s.storePa k a n v).free = s.free := rfl
@[simp] theorem State.storePa_nextTid (s : State) (k : Option Nat) (a n v : Nat) : (s.storePa k a n v).nextTid = s.nextTid := rfl
@[simp] theorem State.storePa_seq (s : State) (k : Option Nat) (a n v : Nat) : (s.storePa k a n v).seq = s.seq := rfl
@[simp] theorem State.storePa_threads (s : State) (k : Option Nat) (a n v : Nat) : (s.storePa k a n v).threads = s.threads := rfl
@[simp] theorem State.storePa_cores (s : State) (k : Option Nat) (a n v : Nat) : (s.storePa k a n v).cores = s.cores := rfl
@[simp] theorem State.storePa_clusters (s : State) (k : Option Nat) (a n v : Nat) : (s.storePa k a n v).clusters = s.clusters := rfl
@[simp] theorem State.storePa_dies (s : State) (k : Option Nat) (a n v : Nat) : (s.storePa k a n v).dies = s.dies := rfl
@[simp] theorem State.storePa_launches (s : State) (k : Option Nat) (a n v : Nat) : (s.storePa k a n v).launches = s.launches := rfl
@[simp] theorem State.storePa_sram (s : State) (k : Option Nat) (a n v : Nat) : (s.storePa k a n v).sram = s.sram := rfl
@[simp] theorem State.storePa_badSram (s : State) (k : Option Nat) (a n v : Nat) : (s.storePa k a n v).badSram = s.badSram := rfl
@[simp] theorem State.storePa_evals (s : State) (k : Option Nat) (a n v : Nat) : (s.storePa k a n v).evals = s.evals := rfl
@[simp] theorem State.storePa_late (s : State) (k : Option Nat) (a n v : Nat) : (s.storePa k a n v).late = s.late := rfl
@[simp] theorem State.storePa_ended (s : State) (k : Option Nat) (a n v : Nat) : (s.storePa k a n v).ended = s.ended := rfl
@[simp] theorem State.storePa_helben (s : State) (k : Option Nat) (a n v : Nat) : (s.storePa k a n v).helben = s.helben := rfl
@[simp] theorem State.storePa_host (s : State) (k : Option Nat) (a n v : Nat) : (s.storePa k a n v).host = s.host := rfl
@[simp] theorem State.storePa_fabric (s : State) (k : Option Nat) (a n v : Nat) : (s.storePa k a n v).fabric = s.fabric := rfl

/-! ### `State.storeSram` -/

@[simp] theorem State.storeSram_cycle (s : State) (k n v : Nat) : (s.storeSram k n v).cycle = s.cycle := rfl
@[simp] theorem State.storeSram_cur (s : State) (k n v : Nat) : (s.storeSram k n v).cur = s.cur := rfl
@[simp] theorem State.storeSram_issued (s : State) (k n v : Nat) : (s.storeSram k n v).issued = s.issued := rfl
@[simp] theorem State.storeSram_phase (s : State) (k n v : Nat) : (s.storeSram k n v).phase = s.phase := rfl
@[simp] theorem State.storeSram_rot (s : State) (k n v : Nat) : (s.storeSram k n v).rot = s.rot := rfl
@[simp] theorem State.storeSram_agenda (s : State) (k n v : Nat) : (s.storeSram k n v).agenda = s.agenda := rfl
@[simp] theorem State.storeSram_free (s : State) (k n v : Nat) : (s.storeSram k n v).free = s.free := rfl
@[simp] theorem State.storeSram_nextTid (s : State) (k n v : Nat) : (s.storeSram k n v).nextTid = s.nextTid := rfl
@[simp] theorem State.storeSram_seq (s : State) (k n v : Nat) : (s.storeSram k n v).seq = s.seq := rfl
@[simp] theorem State.storeSram_threads (s : State) (k n v : Nat) : (s.storeSram k n v).threads = s.threads := rfl
@[simp] theorem State.storeSram_cores (s : State) (k n v : Nat) : (s.storeSram k n v).cores = s.cores := rfl
@[simp] theorem State.storeSram_clusters (s : State) (k n v : Nat) : (s.storeSram k n v).clusters = s.clusters := rfl
@[simp] theorem State.storeSram_dies (s : State) (k n v : Nat) : (s.storeSram k n v).dies = s.dies := rfl
@[simp] theorem State.storeSram_launches (s : State) (k n v : Nat) : (s.storeSram k n v).launches = s.launches := rfl
@[simp] theorem State.storeSram_mem (s : State) (k n v : Nat) : (s.storeSram k n v).mem = s.mem := rfl
@[simp] theorem State.storeSram_tags (s : State) (k n v : Nat) : (s.storeSram k n v).tags = s.tags := rfl
@[simp] theorem State.storeSram_bad (s : State) (k n v : Nat) : (s.storeSram k n v).bad = s.bad := rfl
@[simp] theorem State.storeSram_evals (s : State) (k n v : Nat) : (s.storeSram k n v).evals = s.evals := rfl
@[simp] theorem State.storeSram_late (s : State) (k n v : Nat) : (s.storeSram k n v).late = s.late := rfl
@[simp] theorem State.storeSram_ended (s : State) (k n v : Nat) : (s.storeSram k n v).ended = s.ended := rfl
@[simp] theorem State.storeSram_dir (s : State) (k n v : Nat) : (s.storeSram k n v).dir = s.dir := rfl
@[simp] theorem State.storeSram_helben (s : State) (k n v : Nat) : (s.storeSram k n v).helben = s.helben := rfl
@[simp] theorem State.storeSram_host (s : State) (k n v : Nat) : (s.storeSram k n v).host = s.host := rfl
@[simp] theorem State.storeSram_fabric (s : State) (k n v : Nat) : (s.storeSram k n v).fabric = s.fabric := rfl

/-! ### `State.logAt` -/

@[simp] theorem State.logAt_cycle (s : State) (e : LogCode) (u : BitVec 16) (h : Nat) (v w : Word) : (s.logAt e u h v w).cycle = s.cycle := rfl
@[simp] theorem State.logAt_cur (s : State) (e : LogCode) (u : BitVec 16) (h : Nat) (v w : Word) : (s.logAt e u h v w).cur = s.cur := rfl
@[simp] theorem State.logAt_issued (s : State) (e : LogCode) (u : BitVec 16) (h : Nat) (v w : Word) : (s.logAt e u h v w).issued = s.issued := rfl
@[simp] theorem State.logAt_phase (s : State) (e : LogCode) (u : BitVec 16) (h : Nat) (v w : Word) : (s.logAt e u h v w).phase = s.phase := rfl
@[simp] theorem State.logAt_rot (s : State) (e : LogCode) (u : BitVec 16) (h : Nat) (v w : Word) : (s.logAt e u h v w).rot = s.rot := rfl
@[simp] theorem State.logAt_agenda (s : State) (e : LogCode) (u : BitVec 16) (h : Nat) (v w : Word) : (s.logAt e u h v w).agenda = s.agenda := rfl
@[simp] theorem State.logAt_free (s : State) (e : LogCode) (u : BitVec 16) (h : Nat) (v w : Word) : (s.logAt e u h v w).free = s.free := rfl
@[simp] theorem State.logAt_nextTid (s : State) (e : LogCode) (u : BitVec 16) (h : Nat) (v w : Word) : (s.logAt e u h v w).nextTid = s.nextTid := rfl
@[simp] theorem State.logAt_seq (s : State) (e : LogCode) (u : BitVec 16) (h : Nat) (v w : Word) : (s.logAt e u h v w).seq = s.seq := rfl
@[simp] theorem State.logAt_threads (s : State) (e : LogCode) (u : BitVec 16) (h : Nat) (v w : Word) : (s.logAt e u h v w).threads = s.threads := rfl
@[simp] theorem State.logAt_cores (s : State) (e : LogCode) (u : BitVec 16) (h : Nat) (v w : Word) : (s.logAt e u h v w).cores = s.cores := rfl
@[simp] theorem State.logAt_clusters (s : State) (e : LogCode) (u : BitVec 16) (h : Nat) (v w : Word) : (s.logAt e u h v w).clusters = s.clusters := rfl
@[simp] theorem State.logAt_dies (s : State) (e : LogCode) (u : BitVec 16) (h : Nat) (v w : Word) : (s.logAt e u h v w).dies = s.dies := rfl
@[simp] theorem State.logAt_launches (s : State) (e : LogCode) (u : BitVec 16) (h : Nat) (v w : Word) : (s.logAt e u h v w).launches = s.launches := rfl
@[simp] theorem State.logAt_mem (s : State) (e : LogCode) (u : BitVec 16) (h : Nat) (v w : Word) : (s.logAt e u h v w).mem = s.mem := rfl
@[simp] theorem State.logAt_sram (s : State) (e : LogCode) (u : BitVec 16) (h : Nat) (v w : Word) : (s.logAt e u h v w).sram = s.sram := rfl
@[simp] theorem State.logAt_tags (s : State) (e : LogCode) (u : BitVec 16) (h : Nat) (v w : Word) : (s.logAt e u h v w).tags = s.tags := rfl
@[simp] theorem State.logAt_bad (s : State) (e : LogCode) (u : BitVec 16) (h : Nat) (v w : Word) : (s.logAt e u h v w).bad = s.bad := rfl
@[simp] theorem State.logAt_badSram (s : State) (e : LogCode) (u : BitVec 16) (h : Nat) (v w : Word) : (s.logAt e u h v w).badSram = s.badSram := rfl
@[simp] theorem State.logAt_evals (s : State) (e : LogCode) (u : BitVec 16) (h : Nat) (v w : Word) : (s.logAt e u h v w).evals = s.evals := rfl
@[simp] theorem State.logAt_late (s : State) (e : LogCode) (u : BitVec 16) (h : Nat) (v w : Word) : (s.logAt e u h v w).late = s.late := rfl
@[simp] theorem State.logAt_ended (s : State) (e : LogCode) (u : BitVec 16) (h : Nat) (v w : Word) : (s.logAt e u h v w).ended = s.ended := rfl
@[simp] theorem State.logAt_dir (s : State) (e : LogCode) (u : BitVec 16) (h : Nat) (v w : Word) : (s.logAt e u h v w).dir = s.dir := rfl
@[simp] theorem State.logAt_host (s : State) (e : LogCode) (u : BitVec 16) (h : Nat) (v w : Word) : (s.logAt e u h v w).host = s.host := rfl
@[simp] theorem State.logAt_fabric (s : State) (e : LogCode) (u : BitVec 16) (h : Nat) (v w : Word) : (s.logAt e u h v w).fabric = s.fabric := rfl

/-! ### `State.logEvent` -/

@[simp] theorem State.logEvent_cycle (s : State) (e : LogCode) (h : Nat) (v w : Word) : (s.logEvent e h v w).cycle = s.cycle := rfl
@[simp] theorem State.logEvent_cur (s : State) (e : LogCode) (h : Nat) (v w : Word) : (s.logEvent e h v w).cur = s.cur := rfl
@[simp] theorem State.logEvent_issued (s : State) (e : LogCode) (h : Nat) (v w : Word) : (s.logEvent e h v w).issued = s.issued := rfl
@[simp] theorem State.logEvent_phase (s : State) (e : LogCode) (h : Nat) (v w : Word) : (s.logEvent e h v w).phase = s.phase := rfl
@[simp] theorem State.logEvent_rot (s : State) (e : LogCode) (h : Nat) (v w : Word) : (s.logEvent e h v w).rot = s.rot := rfl
@[simp] theorem State.logEvent_agenda (s : State) (e : LogCode) (h : Nat) (v w : Word) : (s.logEvent e h v w).agenda = s.agenda := rfl
@[simp] theorem State.logEvent_free (s : State) (e : LogCode) (h : Nat) (v w : Word) : (s.logEvent e h v w).free = s.free := rfl
@[simp] theorem State.logEvent_nextTid (s : State) (e : LogCode) (h : Nat) (v w : Word) : (s.logEvent e h v w).nextTid = s.nextTid := rfl
@[simp] theorem State.logEvent_seq (s : State) (e : LogCode) (h : Nat) (v w : Word) : (s.logEvent e h v w).seq = s.seq := rfl
@[simp] theorem State.logEvent_threads (s : State) (e : LogCode) (h : Nat) (v w : Word) : (s.logEvent e h v w).threads = s.threads := rfl
@[simp] theorem State.logEvent_cores (s : State) (e : LogCode) (h : Nat) (v w : Word) : (s.logEvent e h v w).cores = s.cores := rfl
@[simp] theorem State.logEvent_clusters (s : State) (e : LogCode) (h : Nat) (v w : Word) : (s.logEvent e h v w).clusters = s.clusters := rfl
@[simp] theorem State.logEvent_dies (s : State) (e : LogCode) (h : Nat) (v w : Word) : (s.logEvent e h v w).dies = s.dies := rfl
@[simp] theorem State.logEvent_launches (s : State) (e : LogCode) (h : Nat) (v w : Word) : (s.logEvent e h v w).launches = s.launches := rfl
@[simp] theorem State.logEvent_mem (s : State) (e : LogCode) (h : Nat) (v w : Word) : (s.logEvent e h v w).mem = s.mem := rfl
@[simp] theorem State.logEvent_sram (s : State) (e : LogCode) (h : Nat) (v w : Word) : (s.logEvent e h v w).sram = s.sram := rfl
@[simp] theorem State.logEvent_tags (s : State) (e : LogCode) (h : Nat) (v w : Word) : (s.logEvent e h v w).tags = s.tags := rfl
@[simp] theorem State.logEvent_bad (s : State) (e : LogCode) (h : Nat) (v w : Word) : (s.logEvent e h v w).bad = s.bad := rfl
@[simp] theorem State.logEvent_badSram (s : State) (e : LogCode) (h : Nat) (v w : Word) : (s.logEvent e h v w).badSram = s.badSram := rfl
@[simp] theorem State.logEvent_evals (s : State) (e : LogCode) (h : Nat) (v w : Word) : (s.logEvent e h v w).evals = s.evals := rfl
@[simp] theorem State.logEvent_late (s : State) (e : LogCode) (h : Nat) (v w : Word) : (s.logEvent e h v w).late = s.late := rfl
@[simp] theorem State.logEvent_ended (s : State) (e : LogCode) (h : Nat) (v w : Word) : (s.logEvent e h v w).ended = s.ended := rfl
@[simp] theorem State.logEvent_dir (s : State) (e : LogCode) (h : Nat) (v w : Word) : (s.logEvent e h v w).dir = s.dir := rfl
@[simp] theorem State.logEvent_host (s : State) (e : LogCode) (h : Nat) (v w : Word) : (s.logEvent e h v w).host = s.host := rfl
@[simp] theorem State.logEvent_fabric (s : State) (e : LogCode) (h : Nat) (v w : Word) : (s.logEvent e h v w).fabric = s.fabric := rfl

/-! ### `State.setCsrsOf` -/

@[simp] theorem State.setCsrsOf_cycle (s : State) (th : Thread) (v : CtxCsrs) : (s.setCsrsOf th v).cycle = s.cycle := rfl
@[simp] theorem State.setCsrsOf_cur (s : State) (th : Thread) (v : CtxCsrs) : (s.setCsrsOf th v).cur = s.cur := rfl
@[simp] theorem State.setCsrsOf_issued (s : State) (th : Thread) (v : CtxCsrs) : (s.setCsrsOf th v).issued = s.issued := rfl
@[simp] theorem State.setCsrsOf_phase (s : State) (th : Thread) (v : CtxCsrs) : (s.setCsrsOf th v).phase = s.phase := rfl
@[simp] theorem State.setCsrsOf_rot (s : State) (th : Thread) (v : CtxCsrs) : (s.setCsrsOf th v).rot = s.rot := rfl
@[simp] theorem State.setCsrsOf_agenda (s : State) (th : Thread) (v : CtxCsrs) : (s.setCsrsOf th v).agenda = s.agenda := rfl
@[simp] theorem State.setCsrsOf_free (s : State) (th : Thread) (v : CtxCsrs) : (s.setCsrsOf th v).free = s.free := rfl
@[simp] theorem State.setCsrsOf_nextTid (s : State) (th : Thread) (v : CtxCsrs) : (s.setCsrsOf th v).nextTid = s.nextTid := rfl
@[simp] theorem State.setCsrsOf_seq (s : State) (th : Thread) (v : CtxCsrs) : (s.setCsrsOf th v).seq = s.seq := rfl
@[simp] theorem State.setCsrsOf_threads (s : State) (th : Thread) (v : CtxCsrs) : (s.setCsrsOf th v).threads = s.threads := rfl
@[simp] theorem State.setCsrsOf_clusters (s : State) (th : Thread) (v : CtxCsrs) : (s.setCsrsOf th v).clusters = s.clusters := rfl
@[simp] theorem State.setCsrsOf_dies (s : State) (th : Thread) (v : CtxCsrs) : (s.setCsrsOf th v).dies = s.dies := rfl
@[simp] theorem State.setCsrsOf_launches (s : State) (th : Thread) (v : CtxCsrs) : (s.setCsrsOf th v).launches = s.launches := rfl
@[simp] theorem State.setCsrsOf_mem (s : State) (th : Thread) (v : CtxCsrs) : (s.setCsrsOf th v).mem = s.mem := rfl
@[simp] theorem State.setCsrsOf_sram (s : State) (th : Thread) (v : CtxCsrs) : (s.setCsrsOf th v).sram = s.sram := rfl
@[simp] theorem State.setCsrsOf_tags (s : State) (th : Thread) (v : CtxCsrs) : (s.setCsrsOf th v).tags = s.tags := rfl
@[simp] theorem State.setCsrsOf_bad (s : State) (th : Thread) (v : CtxCsrs) : (s.setCsrsOf th v).bad = s.bad := rfl
@[simp] theorem State.setCsrsOf_badSram (s : State) (th : Thread) (v : CtxCsrs) : (s.setCsrsOf th v).badSram = s.badSram := rfl
@[simp] theorem State.setCsrsOf_evals (s : State) (th : Thread) (v : CtxCsrs) : (s.setCsrsOf th v).evals = s.evals := rfl
@[simp] theorem State.setCsrsOf_late (s : State) (th : Thread) (v : CtxCsrs) : (s.setCsrsOf th v).late = s.late := rfl
@[simp] theorem State.setCsrsOf_ended (s : State) (th : Thread) (v : CtxCsrs) : (s.setCsrsOf th v).ended = s.ended := rfl
@[simp] theorem State.setCsrsOf_dir (s : State) (th : Thread) (v : CtxCsrs) : (s.setCsrsOf th v).dir = s.dir := rfl
@[simp] theorem State.setCsrsOf_helben (s : State) (th : Thread) (v : CtxCsrs) : (s.setCsrsOf th v).helben = s.helben := rfl
@[simp] theorem State.setCsrsOf_host (s : State) (th : Thread) (v : CtxCsrs) : (s.setCsrsOf th v).host = s.host := rfl
@[simp] theorem State.setCsrsOf_fabric (s : State) (th : Thread) (v : CtxCsrs) : (s.setCsrsOf th v).fabric = s.fabric := rfl

/-! ### `Thread.setX` -/

@[simp] theorem Thread.setX_place (th : Thread) (r : Reg) (v : Word) : (th.setX r v).place = th.place := by
  unfold Thread.setX; split <;> rfl
@[simp] theorem Thread.setX_v (th : Thread) (r : Reg) (v : Word) : (th.setX r v).v = th.v := by
  unfold Thread.setX; split <;> rfl
@[simp] theorem Thread.setX_m (th : Thread) (r : Reg) (v : Word) : (th.setX r v).m = th.m := by
  unfold Thread.setX; split <;> rfl
@[simp] theorem Thread.setX_pc (th : Thread) (r : Reg) (v : Word) : (th.setX r v).pc = th.pc := by
  unfold Thread.setX; split <;> rfl
@[simp] theorem Thread.setX_mode (th : Thread) (r : Reg) (v : Word) : (th.setX r v).mode = th.mode := by
  unfold Thread.setX; split <;> rfl
@[simp] theorem Thread.setX_fflags (th : Thread) (r : Reg) (v : Word) : (th.setX r v).fflags = th.fflags := by
  unfold Thread.setX; split <;> rfl
@[simp] theorem Thread.setX_frm (th : Thread) (r : Reg) (v : Word) : (th.setX r v).frm = th.frm := by
  unfold Thread.setX; split <;> rfl
@[simp] theorem Thread.setX_ftrap (th : Thread) (r : Reg) (v : Word) : (th.setX r v).ftrap = th.ftrap := by
  unfold Thread.setX; split <;> rfl
@[simp] theorem Thread.setX_flagorg (th : Thread) (r : Reg) (v : Word) : (th.setX r v).flagorg = th.flagorg := by
  unfold Thread.setX; split <;> rfl
@[simp] theorem Thread.setX_mult (th : Thread) (r : Reg) (v : Word) : (th.setX r v).mult = th.mult := by
  unfold Thread.setX; split <;> rfl
@[simp] theorem Thread.setX_live (th : Thread) (r : Reg) (v : Word) : (th.setX r v).live = th.live := by
  unfold Thread.setX; split <;> rfl
@[simp] theorem Thread.setX_wid (th : Thread) (r : Reg) (v : Word) : (th.setX r v).wid = th.wid := by
  unfold Thread.setX; split <;> rfl
@[simp] theorem Thread.setX_widself (th : Thread) (r : Reg) (v : Word) : (th.setX r v).widself = th.widself := by
  unfold Thread.setX; split <;> rfl
@[simp] theorem Thread.setX_lctx (th : Thread) (r : Reg) (v : Word) : (th.setX r v).lctx = th.lctx := by
  unfold Thread.setX; split <;> rfl
@[simp] theorem Thread.setX_cell (th : Thread) (r : Reg) (v : Word) : (th.setX r v).cell = th.cell := by
  unfold Thread.setX; split <;> rfl
@[simp] theorem Thread.setX_instret (th : Thread) (r : Reg) (v : Word) : (th.setX r v).instret = th.instret := by
  unfold Thread.setX; split <;> rfl
@[simp] theorem Thread.setX_privbase (th : Thread) (r : Reg) (v : Word) : (th.setX r v).privbase = th.privbase := by
  unfold Thread.setX; split <;> rfl
@[simp] theorem Thread.setX_utvec (th : Thread) (r : Reg) (v : Word) : (th.setX r v).utvec = th.utvec := by
  unfold Thread.setX; split <;> rfl
@[simp] theorem Thread.setX_uepc (th : Thread) (r : Reg) (v : Word) : (th.setX r v).uepc = th.uepc := by
  unfold Thread.setX; split <;> rfl
@[simp] theorem Thread.setX_ucause (th : Thread) (r : Reg) (v : Word) : (th.setX r v).ucause = th.ucause := by
  unfold Thread.setX; split <;> rfl
@[simp] theorem Thread.setX_uval (th : Thread) (r : Reg) (v : Word) : (th.setX r v).uval = th.uval := by
  unfold Thread.setX; split <;> rfl
@[simp] theorem Thread.setX_uskip (th : Thread) (r : Reg) (v : Word) : (th.setX r v).uskip = th.uskip := by
  unfold Thread.setX; split <;> rfl
@[simp] theorem Thread.setX_mxcfg (th : Thread) (r : Reg) (v : Word) : (th.setX r v).mxcfg = th.mxcfg := by
  unfold Thread.setX; split <;> rfl
@[simp] theorem Thread.setX_mxcnt (th : Thread) (r : Reg) (v : Word) : (th.setX r v).mxcnt = th.mxcnt := by
  unfold Thread.setX; split <;> rfl
@[simp] theorem Thread.setX_epc (th : Thread) (r : Reg) (v : Word) : (th.setX r v).epc = th.epc := by
  unfold Thread.setX; split <;> rfl
@[simp] theorem Thread.setX_cause (th : Thread) (r : Reg) (v : Word) : (th.setX r v).cause = th.cause := by
  unfold Thread.setX; split <;> rfl
@[simp] theorem Thread.setX_eval (th : Thread) (r : Reg) (v : Word) : (th.setX r v).eval = th.eval := by
  unfold Thread.setX; split <;> rfl
@[simp] theorem Thread.setX_eskip (th : Thread) (r : Reg) (v : Word) : (th.setX r v).eskip = th.eskip := by
  unfold Thread.setX; split <;> rfl
@[simp] theorem Thread.setX_emode (th : Thread) (r : Reg) (v : Word) : (th.setX r v).emode = th.emode := by
  unfold Thread.setX; split <;> rfl
@[simp] theorem Thread.setX_head (th : Thread) (r : Reg) (v : Word) : (th.setX r v).head = th.head := by
  unfold Thread.setX; split <;> rfl
@[simp] theorem Thread.setX_window (th : Thread) (r : Reg) (v : Word) : (th.setX r v).window = th.window := by
  unfold Thread.setX; split <;> rfl
@[simp] theorem Thread.setX_wait (th : Thread) (r : Reg) (v : Word) : (th.setX r v).wait = th.wait := by
  unfold Thread.setX; split <;> rfl
@[simp] theorem Thread.setX_wake (th : Thread) (r : Reg) (v : Word) : (th.setX r v).wake = th.wake := by
  unfold Thread.setX; split <;> rfl
@[simp] theorem Thread.setX_kind (th : Thread) (r : Reg) (v : Word) : (th.setX r v).kind = th.kind := by
  unfold Thread.setX; split <;> rfl
@[simp] theorem Thread.setX_again (th : Thread) (r : Reg) (v : Word) : (th.setX r v).again = th.again := by
  unfold Thread.setX; split <;> rfl
@[simp] theorem Thread.setX_trapUntil (th : Thread) (r : Reg) (v : Word) : (th.setX r v).trapUntil = th.trapUntil := by
  unfold Thread.setX; split <;> rfl
@[simp] theorem Thread.setX_pending (th : Thread) (r : Reg) (v : Word) : (th.setX r v).pending = th.pending := by
  unfold Thread.setX; split <;> rfl
@[simp] theorem Thread.setX_owed (th : Thread) (r : Reg) (v : Word) : (th.setX r v).owed = th.owed := by
  unfold Thread.setX; split <;> rfl
@[simp] theorem Thread.setX_redo (th : Thread) (r : Reg) (v : Word) : (th.setX r v).redo = th.redo := by
  unfold Thread.setX; split <;> rfl
@[simp] theorem Thread.setX_entered (th : Thread) (r : Reg) (v : Word) : (th.setX r v).entered = th.entered := by
  unfold Thread.setX; split <;> rfl
@[simp] theorem Thread.setX_lastIssue (th : Thread) (r : Reg) (v : Word) : (th.setX r v).lastIssue = th.lastIssue := by
  unfold Thread.setX; split <;> rfl
@[simp] theorem Thread.setX_lastRetire (th : Thread) (r : Reg) (v : Word) : (th.setX r v).lastRetire = th.lastRetire := by
  unfold Thread.setX; split <;> rfl
@[simp] theorem Thread.setX_evalOf (th : Thread) (r : Reg) (v : Word) : (th.setX r v).evalOf = th.evalOf := by
  unfold Thread.setX; split <;> rfl
@[simp] theorem Thread.setX_copies (th : Thread) (r : Reg) (v : Word) : (th.setX r v).copies = th.copies := by
  unfold Thread.setX; split <;> rfl
@[simp] theorem Thread.setX_bound (th : Thread) (r : Reg) (v : Word) : (th.setX r v).bound = th.bound := by
  unfold Thread.setX; split <;> rfl
@[simp] theorem Thread.setX_preempt (th : Thread) (r : Reg) (v : Word) : (th.setX r v).preempt = th.preempt := by
  unfold Thread.setX; split <;> rfl
@[simp] theorem Thread.setX_skip (th : Thread) (r : Reg) (v : Word) : (th.setX r v).skip = th.skip := by
  unfold Thread.setX; split <;> rfl

/-! ### `Thread.setV` -/

@[simp] theorem Thread.setV_place (th : Thread) (r : VReg) (v : VWord) : (th.setV r v).place = th.place := rfl
@[simp] theorem Thread.setV_x (th : Thread) (r : VReg) (v : VWord) : (th.setV r v).x = th.x := rfl
@[simp] theorem Thread.setV_m (th : Thread) (r : VReg) (v : VWord) : (th.setV r v).m = th.m := rfl
@[simp] theorem Thread.setV_pc (th : Thread) (r : VReg) (v : VWord) : (th.setV r v).pc = th.pc := rfl
@[simp] theorem Thread.setV_mode (th : Thread) (r : VReg) (v : VWord) : (th.setV r v).mode = th.mode := rfl
@[simp] theorem Thread.setV_fflags (th : Thread) (r : VReg) (v : VWord) : (th.setV r v).fflags = th.fflags := rfl
@[simp] theorem Thread.setV_frm (th : Thread) (r : VReg) (v : VWord) : (th.setV r v).frm = th.frm := rfl
@[simp] theorem Thread.setV_ftrap (th : Thread) (r : VReg) (v : VWord) : (th.setV r v).ftrap = th.ftrap := rfl
@[simp] theorem Thread.setV_flagorg (th : Thread) (r : VReg) (v : VWord) : (th.setV r v).flagorg = th.flagorg := rfl
@[simp] theorem Thread.setV_mult (th : Thread) (r : VReg) (v : VWord) : (th.setV r v).mult = th.mult := rfl
@[simp] theorem Thread.setV_live (th : Thread) (r : VReg) (v : VWord) : (th.setV r v).live = th.live := rfl
@[simp] theorem Thread.setV_wid (th : Thread) (r : VReg) (v : VWord) : (th.setV r v).wid = th.wid := rfl
@[simp] theorem Thread.setV_widself (th : Thread) (r : VReg) (v : VWord) : (th.setV r v).widself = th.widself := rfl
@[simp] theorem Thread.setV_lctx (th : Thread) (r : VReg) (v : VWord) : (th.setV r v).lctx = th.lctx := rfl
@[simp] theorem Thread.setV_cell (th : Thread) (r : VReg) (v : VWord) : (th.setV r v).cell = th.cell := rfl
@[simp] theorem Thread.setV_instret (th : Thread) (r : VReg) (v : VWord) : (th.setV r v).instret = th.instret := rfl
@[simp] theorem Thread.setV_privbase (th : Thread) (r : VReg) (v : VWord) : (th.setV r v).privbase = th.privbase := rfl
@[simp] theorem Thread.setV_utvec (th : Thread) (r : VReg) (v : VWord) : (th.setV r v).utvec = th.utvec := rfl
@[simp] theorem Thread.setV_uepc (th : Thread) (r : VReg) (v : VWord) : (th.setV r v).uepc = th.uepc := rfl
@[simp] theorem Thread.setV_ucause (th : Thread) (r : VReg) (v : VWord) : (th.setV r v).ucause = th.ucause := rfl
@[simp] theorem Thread.setV_uval (th : Thread) (r : VReg) (v : VWord) : (th.setV r v).uval = th.uval := rfl
@[simp] theorem Thread.setV_uskip (th : Thread) (r : VReg) (v : VWord) : (th.setV r v).uskip = th.uskip := rfl
@[simp] theorem Thread.setV_mxcfg (th : Thread) (r : VReg) (v : VWord) : (th.setV r v).mxcfg = th.mxcfg := rfl
@[simp] theorem Thread.setV_mxcnt (th : Thread) (r : VReg) (v : VWord) : (th.setV r v).mxcnt = th.mxcnt := rfl
@[simp] theorem Thread.setV_epc (th : Thread) (r : VReg) (v : VWord) : (th.setV r v).epc = th.epc := rfl
@[simp] theorem Thread.setV_cause (th : Thread) (r : VReg) (v : VWord) : (th.setV r v).cause = th.cause := rfl
@[simp] theorem Thread.setV_eval (th : Thread) (r : VReg) (v : VWord) : (th.setV r v).eval = th.eval := rfl
@[simp] theorem Thread.setV_eskip (th : Thread) (r : VReg) (v : VWord) : (th.setV r v).eskip = th.eskip := rfl
@[simp] theorem Thread.setV_emode (th : Thread) (r : VReg) (v : VWord) : (th.setV r v).emode = th.emode := rfl
@[simp] theorem Thread.setV_head (th : Thread) (r : VReg) (v : VWord) : (th.setV r v).head = th.head := rfl
@[simp] theorem Thread.setV_window (th : Thread) (r : VReg) (v : VWord) : (th.setV r v).window = th.window := rfl
@[simp] theorem Thread.setV_wait (th : Thread) (r : VReg) (v : VWord) : (th.setV r v).wait = th.wait := rfl
@[simp] theorem Thread.setV_wake (th : Thread) (r : VReg) (v : VWord) : (th.setV r v).wake = th.wake := rfl
@[simp] theorem Thread.setV_kind (th : Thread) (r : VReg) (v : VWord) : (th.setV r v).kind = th.kind := rfl
@[simp] theorem Thread.setV_again (th : Thread) (r : VReg) (v : VWord) : (th.setV r v).again = th.again := rfl
@[simp] theorem Thread.setV_trapUntil (th : Thread) (r : VReg) (v : VWord) : (th.setV r v).trapUntil = th.trapUntil := rfl
@[simp] theorem Thread.setV_pending (th : Thread) (r : VReg) (v : VWord) : (th.setV r v).pending = th.pending := rfl
@[simp] theorem Thread.setV_owed (th : Thread) (r : VReg) (v : VWord) : (th.setV r v).owed = th.owed := rfl
@[simp] theorem Thread.setV_redo (th : Thread) (r : VReg) (v : VWord) : (th.setV r v).redo = th.redo := rfl
@[simp] theorem Thread.setV_entered (th : Thread) (r : VReg) (v : VWord) : (th.setV r v).entered = th.entered := rfl
@[simp] theorem Thread.setV_lastIssue (th : Thread) (r : VReg) (v : VWord) : (th.setV r v).lastIssue = th.lastIssue := rfl
@[simp] theorem Thread.setV_lastRetire (th : Thread) (r : VReg) (v : VWord) : (th.setV r v).lastRetire = th.lastRetire := rfl
@[simp] theorem Thread.setV_evalOf (th : Thread) (r : VReg) (v : VWord) : (th.setV r v).evalOf = th.evalOf := rfl
@[simp] theorem Thread.setV_copies (th : Thread) (r : VReg) (v : VWord) : (th.setV r v).copies = th.copies := rfl
@[simp] theorem Thread.setV_bound (th : Thread) (r : VReg) (v : VWord) : (th.setV r v).bound = th.bound := rfl
@[simp] theorem Thread.setV_preempt (th : Thread) (r : VReg) (v : VWord) : (th.setV r v).preempt = th.preempt := rfl
@[simp] theorem Thread.setV_skip (th : Thread) (r : VReg) (v : VWord) : (th.setV r v).skip = th.skip := rfl

/-! ### `Thread.setM` -/

@[simp] theorem Thread.setM_place (th : Thread) (r : MReg) (v : MWord) : (th.setM r v).place = th.place := by
  unfold Thread.setM; split <;> rfl
@[simp] theorem Thread.setM_x (th : Thread) (r : MReg) (v : MWord) : (th.setM r v).x = th.x := by
  unfold Thread.setM; split <;> rfl
@[simp] theorem Thread.setM_v (th : Thread) (r : MReg) (v : MWord) : (th.setM r v).v = th.v := by
  unfold Thread.setM; split <;> rfl
@[simp] theorem Thread.setM_pc (th : Thread) (r : MReg) (v : MWord) : (th.setM r v).pc = th.pc := by
  unfold Thread.setM; split <;> rfl
@[simp] theorem Thread.setM_mode (th : Thread) (r : MReg) (v : MWord) : (th.setM r v).mode = th.mode := by
  unfold Thread.setM; split <;> rfl
@[simp] theorem Thread.setM_fflags (th : Thread) (r : MReg) (v : MWord) : (th.setM r v).fflags = th.fflags := by
  unfold Thread.setM; split <;> rfl
@[simp] theorem Thread.setM_frm (th : Thread) (r : MReg) (v : MWord) : (th.setM r v).frm = th.frm := by
  unfold Thread.setM; split <;> rfl
@[simp] theorem Thread.setM_ftrap (th : Thread) (r : MReg) (v : MWord) : (th.setM r v).ftrap = th.ftrap := by
  unfold Thread.setM; split <;> rfl
@[simp] theorem Thread.setM_flagorg (th : Thread) (r : MReg) (v : MWord) : (th.setM r v).flagorg = th.flagorg := by
  unfold Thread.setM; split <;> rfl
@[simp] theorem Thread.setM_mult (th : Thread) (r : MReg) (v : MWord) : (th.setM r v).mult = th.mult := by
  unfold Thread.setM; split <;> rfl
@[simp] theorem Thread.setM_live (th : Thread) (r : MReg) (v : MWord) : (th.setM r v).live = th.live := by
  unfold Thread.setM; split <;> rfl
@[simp] theorem Thread.setM_wid (th : Thread) (r : MReg) (v : MWord) : (th.setM r v).wid = th.wid := by
  unfold Thread.setM; split <;> rfl
@[simp] theorem Thread.setM_widself (th : Thread) (r : MReg) (v : MWord) : (th.setM r v).widself = th.widself := by
  unfold Thread.setM; split <;> rfl
@[simp] theorem Thread.setM_lctx (th : Thread) (r : MReg) (v : MWord) : (th.setM r v).lctx = th.lctx := by
  unfold Thread.setM; split <;> rfl
@[simp] theorem Thread.setM_cell (th : Thread) (r : MReg) (v : MWord) : (th.setM r v).cell = th.cell := by
  unfold Thread.setM; split <;> rfl
@[simp] theorem Thread.setM_instret (th : Thread) (r : MReg) (v : MWord) : (th.setM r v).instret = th.instret := by
  unfold Thread.setM; split <;> rfl
@[simp] theorem Thread.setM_privbase (th : Thread) (r : MReg) (v : MWord) : (th.setM r v).privbase = th.privbase := by
  unfold Thread.setM; split <;> rfl
@[simp] theorem Thread.setM_utvec (th : Thread) (r : MReg) (v : MWord) : (th.setM r v).utvec = th.utvec := by
  unfold Thread.setM; split <;> rfl
@[simp] theorem Thread.setM_uepc (th : Thread) (r : MReg) (v : MWord) : (th.setM r v).uepc = th.uepc := by
  unfold Thread.setM; split <;> rfl
@[simp] theorem Thread.setM_ucause (th : Thread) (r : MReg) (v : MWord) : (th.setM r v).ucause = th.ucause := by
  unfold Thread.setM; split <;> rfl
@[simp] theorem Thread.setM_uval (th : Thread) (r : MReg) (v : MWord) : (th.setM r v).uval = th.uval := by
  unfold Thread.setM; split <;> rfl
@[simp] theorem Thread.setM_uskip (th : Thread) (r : MReg) (v : MWord) : (th.setM r v).uskip = th.uskip := by
  unfold Thread.setM; split <;> rfl
@[simp] theorem Thread.setM_mxcfg (th : Thread) (r : MReg) (v : MWord) : (th.setM r v).mxcfg = th.mxcfg := by
  unfold Thread.setM; split <;> rfl
@[simp] theorem Thread.setM_mxcnt (th : Thread) (r : MReg) (v : MWord) : (th.setM r v).mxcnt = th.mxcnt := by
  unfold Thread.setM; split <;> rfl
@[simp] theorem Thread.setM_epc (th : Thread) (r : MReg) (v : MWord) : (th.setM r v).epc = th.epc := by
  unfold Thread.setM; split <;> rfl
@[simp] theorem Thread.setM_cause (th : Thread) (r : MReg) (v : MWord) : (th.setM r v).cause = th.cause := by
  unfold Thread.setM; split <;> rfl
@[simp] theorem Thread.setM_eval (th : Thread) (r : MReg) (v : MWord) : (th.setM r v).eval = th.eval := by
  unfold Thread.setM; split <;> rfl
@[simp] theorem Thread.setM_eskip (th : Thread) (r : MReg) (v : MWord) : (th.setM r v).eskip = th.eskip := by
  unfold Thread.setM; split <;> rfl
@[simp] theorem Thread.setM_emode (th : Thread) (r : MReg) (v : MWord) : (th.setM r v).emode = th.emode := by
  unfold Thread.setM; split <;> rfl
@[simp] theorem Thread.setM_head (th : Thread) (r : MReg) (v : MWord) : (th.setM r v).head = th.head := by
  unfold Thread.setM; split <;> rfl
@[simp] theorem Thread.setM_window (th : Thread) (r : MReg) (v : MWord) : (th.setM r v).window = th.window := by
  unfold Thread.setM; split <;> rfl
@[simp] theorem Thread.setM_wait (th : Thread) (r : MReg) (v : MWord) : (th.setM r v).wait = th.wait := by
  unfold Thread.setM; split <;> rfl
@[simp] theorem Thread.setM_wake (th : Thread) (r : MReg) (v : MWord) : (th.setM r v).wake = th.wake := by
  unfold Thread.setM; split <;> rfl
@[simp] theorem Thread.setM_kind (th : Thread) (r : MReg) (v : MWord) : (th.setM r v).kind = th.kind := by
  unfold Thread.setM; split <;> rfl
@[simp] theorem Thread.setM_again (th : Thread) (r : MReg) (v : MWord) : (th.setM r v).again = th.again := by
  unfold Thread.setM; split <;> rfl
@[simp] theorem Thread.setM_trapUntil (th : Thread) (r : MReg) (v : MWord) : (th.setM r v).trapUntil = th.trapUntil := by
  unfold Thread.setM; split <;> rfl
@[simp] theorem Thread.setM_pending (th : Thread) (r : MReg) (v : MWord) : (th.setM r v).pending = th.pending := by
  unfold Thread.setM; split <;> rfl
@[simp] theorem Thread.setM_owed (th : Thread) (r : MReg) (v : MWord) : (th.setM r v).owed = th.owed := by
  unfold Thread.setM; split <;> rfl
@[simp] theorem Thread.setM_redo (th : Thread) (r : MReg) (v : MWord) : (th.setM r v).redo = th.redo := by
  unfold Thread.setM; split <;> rfl
@[simp] theorem Thread.setM_entered (th : Thread) (r : MReg) (v : MWord) : (th.setM r v).entered = th.entered := by
  unfold Thread.setM; split <;> rfl
@[simp] theorem Thread.setM_lastIssue (th : Thread) (r : MReg) (v : MWord) : (th.setM r v).lastIssue = th.lastIssue := by
  unfold Thread.setM; split <;> rfl
@[simp] theorem Thread.setM_lastRetire (th : Thread) (r : MReg) (v : MWord) : (th.setM r v).lastRetire = th.lastRetire := by
  unfold Thread.setM; split <;> rfl
@[simp] theorem Thread.setM_evalOf (th : Thread) (r : MReg) (v : MWord) : (th.setM r v).evalOf = th.evalOf := by
  unfold Thread.setM; split <;> rfl
@[simp] theorem Thread.setM_copies (th : Thread) (r : MReg) (v : MWord) : (th.setM r v).copies = th.copies := by
  unfold Thread.setM; split <;> rfl
@[simp] theorem Thread.setM_bound (th : Thread) (r : MReg) (v : MWord) : (th.setM r v).bound = th.bound := by
  unfold Thread.setM; split <;> rfl
@[simp] theorem Thread.setM_preempt (th : Thread) (r : MReg) (v : MWord) : (th.setM r v).preempt = th.preempt := by
  unfold Thread.setM; split <;> rfl
@[simp] theorem Thread.setM_skip (th : Thread) (r : MReg) (v : MWord) : (th.setM r v).skip = th.skip := by
  unfold Thread.setM; split <;> rfl

/-! ### `Thread.retireTo` -/

@[simp] theorem Thread.retireTo_place (th : Thread) (c : Nat) (p : Word) : (th.retireTo c p).place = th.place := rfl
@[simp] theorem Thread.retireTo_x (th : Thread) (c : Nat) (p : Word) : (th.retireTo c p).x = th.x := rfl
@[simp] theorem Thread.retireTo_v (th : Thread) (c : Nat) (p : Word) : (th.retireTo c p).v = th.v := rfl
@[simp] theorem Thread.retireTo_m (th : Thread) (c : Nat) (p : Word) : (th.retireTo c p).m = th.m := rfl
@[simp] theorem Thread.retireTo_mode (th : Thread) (c : Nat) (p : Word) : (th.retireTo c p).mode = th.mode := rfl
@[simp] theorem Thread.retireTo_fflags (th : Thread) (c : Nat) (p : Word) : (th.retireTo c p).fflags = th.fflags := rfl
@[simp] theorem Thread.retireTo_frm (th : Thread) (c : Nat) (p : Word) : (th.retireTo c p).frm = th.frm := rfl
@[simp] theorem Thread.retireTo_ftrap (th : Thread) (c : Nat) (p : Word) : (th.retireTo c p).ftrap = th.ftrap := rfl
@[simp] theorem Thread.retireTo_flagorg (th : Thread) (c : Nat) (p : Word) : (th.retireTo c p).flagorg = th.flagorg := rfl
@[simp] theorem Thread.retireTo_mult (th : Thread) (c : Nat) (p : Word) : (th.retireTo c p).mult = th.mult := rfl
@[simp] theorem Thread.retireTo_live (th : Thread) (c : Nat) (p : Word) : (th.retireTo c p).live = th.live := rfl
@[simp] theorem Thread.retireTo_wid (th : Thread) (c : Nat) (p : Word) : (th.retireTo c p).wid = th.wid := rfl
@[simp] theorem Thread.retireTo_widself (th : Thread) (c : Nat) (p : Word) : (th.retireTo c p).widself = th.widself := rfl
@[simp] theorem Thread.retireTo_lctx (th : Thread) (c : Nat) (p : Word) : (th.retireTo c p).lctx = th.lctx := rfl
@[simp] theorem Thread.retireTo_cell (th : Thread) (c : Nat) (p : Word) : (th.retireTo c p).cell = th.cell := rfl
@[simp] theorem Thread.retireTo_privbase (th : Thread) (c : Nat) (p : Word) : (th.retireTo c p).privbase = th.privbase := rfl
@[simp] theorem Thread.retireTo_utvec (th : Thread) (c : Nat) (p : Word) : (th.retireTo c p).utvec = th.utvec := rfl
@[simp] theorem Thread.retireTo_uepc (th : Thread) (c : Nat) (p : Word) : (th.retireTo c p).uepc = th.uepc := rfl
@[simp] theorem Thread.retireTo_ucause (th : Thread) (c : Nat) (p : Word) : (th.retireTo c p).ucause = th.ucause := rfl
@[simp] theorem Thread.retireTo_uval (th : Thread) (c : Nat) (p : Word) : (th.retireTo c p).uval = th.uval := rfl
@[simp] theorem Thread.retireTo_uskip (th : Thread) (c : Nat) (p : Word) : (th.retireTo c p).uskip = th.uskip := rfl
@[simp] theorem Thread.retireTo_mxcfg (th : Thread) (c : Nat) (p : Word) : (th.retireTo c p).mxcfg = th.mxcfg := rfl
@[simp] theorem Thread.retireTo_mxcnt (th : Thread) (c : Nat) (p : Word) : (th.retireTo c p).mxcnt = th.mxcnt := rfl
@[simp] theorem Thread.retireTo_epc (th : Thread) (c : Nat) (p : Word) : (th.retireTo c p).epc = th.epc := rfl
@[simp] theorem Thread.retireTo_cause (th : Thread) (c : Nat) (p : Word) : (th.retireTo c p).cause = th.cause := rfl
@[simp] theorem Thread.retireTo_eval (th : Thread) (c : Nat) (p : Word) : (th.retireTo c p).eval = th.eval := rfl
@[simp] theorem Thread.retireTo_eskip (th : Thread) (c : Nat) (p : Word) : (th.retireTo c p).eskip = th.eskip := rfl
@[simp] theorem Thread.retireTo_emode (th : Thread) (c : Nat) (p : Word) : (th.retireTo c p).emode = th.emode := rfl
@[simp] theorem Thread.retireTo_head (th : Thread) (c : Nat) (p : Word) : (th.retireTo c p).head = th.head := rfl
@[simp] theorem Thread.retireTo_window (th : Thread) (c : Nat) (p : Word) : (th.retireTo c p).window = th.window := rfl
@[simp] theorem Thread.retireTo_wake (th : Thread) (c : Nat) (p : Word) : (th.retireTo c p).wake = th.wake := rfl
@[simp] theorem Thread.retireTo_kind (th : Thread) (c : Nat) (p : Word) : (th.retireTo c p).kind = th.kind := rfl
@[simp] theorem Thread.retireTo_again (th : Thread) (c : Nat) (p : Word) : (th.retireTo c p).again = th.again := rfl
@[simp] theorem Thread.retireTo_trapUntil (th : Thread) (c : Nat) (p : Word) : (th.retireTo c p).trapUntil = th.trapUntil := rfl
@[simp] theorem Thread.retireTo_pending (th : Thread) (c : Nat) (p : Word) : (th.retireTo c p).pending = th.pending := rfl
@[simp] theorem Thread.retireTo_owed (th : Thread) (c : Nat) (p : Word) : (th.retireTo c p).owed = th.owed := rfl
@[simp] theorem Thread.retireTo_lastIssue (th : Thread) (c : Nat) (p : Word) : (th.retireTo c p).lastIssue = th.lastIssue := rfl
@[simp] theorem Thread.retireTo_evalOf (th : Thread) (c : Nat) (p : Word) : (th.retireTo c p).evalOf = th.evalOf := rfl
@[simp] theorem Thread.retireTo_copies (th : Thread) (c : Nat) (p : Word) : (th.retireTo c p).copies = th.copies := rfl
@[simp] theorem Thread.retireTo_bound (th : Thread) (c : Nat) (p : Word) : (th.retireTo c p).bound = th.bound := rfl
@[simp] theorem Thread.retireTo_preempt (th : Thread) (c : Nat) (p : Word) : (th.retireTo c p).preempt = th.preempt := rfl
@[simp] theorem Thread.retireTo_skip (th : Thread) (c : Nat) (p : Word) : (th.retireTo c p).skip = th.skip := rfl

/-! ### `Thread.retire` -/

@[simp] theorem Thread.retire_place (th : Thread) (c : Nat) : (th.retire c).place = th.place := rfl
@[simp] theorem Thread.retire_x (th : Thread) (c : Nat) : (th.retire c).x = th.x := rfl
@[simp] theorem Thread.retire_v (th : Thread) (c : Nat) : (th.retire c).v = th.v := rfl
@[simp] theorem Thread.retire_m (th : Thread) (c : Nat) : (th.retire c).m = th.m := rfl
@[simp] theorem Thread.retire_mode (th : Thread) (c : Nat) : (th.retire c).mode = th.mode := rfl
@[simp] theorem Thread.retire_fflags (th : Thread) (c : Nat) : (th.retire c).fflags = th.fflags := rfl
@[simp] theorem Thread.retire_frm (th : Thread) (c : Nat) : (th.retire c).frm = th.frm := rfl
@[simp] theorem Thread.retire_ftrap (th : Thread) (c : Nat) : (th.retire c).ftrap = th.ftrap := rfl
@[simp] theorem Thread.retire_flagorg (th : Thread) (c : Nat) : (th.retire c).flagorg = th.flagorg := rfl
@[simp] theorem Thread.retire_mult (th : Thread) (c : Nat) : (th.retire c).mult = th.mult := rfl
@[simp] theorem Thread.retire_live (th : Thread) (c : Nat) : (th.retire c).live = th.live := rfl
@[simp] theorem Thread.retire_wid (th : Thread) (c : Nat) : (th.retire c).wid = th.wid := rfl
@[simp] theorem Thread.retire_widself (th : Thread) (c : Nat) : (th.retire c).widself = th.widself := rfl
@[simp] theorem Thread.retire_lctx (th : Thread) (c : Nat) : (th.retire c).lctx = th.lctx := rfl
@[simp] theorem Thread.retire_cell (th : Thread) (c : Nat) : (th.retire c).cell = th.cell := rfl
@[simp] theorem Thread.retire_privbase (th : Thread) (c : Nat) : (th.retire c).privbase = th.privbase := rfl
@[simp] theorem Thread.retire_utvec (th : Thread) (c : Nat) : (th.retire c).utvec = th.utvec := rfl
@[simp] theorem Thread.retire_uepc (th : Thread) (c : Nat) : (th.retire c).uepc = th.uepc := rfl
@[simp] theorem Thread.retire_ucause (th : Thread) (c : Nat) : (th.retire c).ucause = th.ucause := rfl
@[simp] theorem Thread.retire_uval (th : Thread) (c : Nat) : (th.retire c).uval = th.uval := rfl
@[simp] theorem Thread.retire_uskip (th : Thread) (c : Nat) : (th.retire c).uskip = th.uskip := rfl
@[simp] theorem Thread.retire_mxcfg (th : Thread) (c : Nat) : (th.retire c).mxcfg = th.mxcfg := rfl
@[simp] theorem Thread.retire_mxcnt (th : Thread) (c : Nat) : (th.retire c).mxcnt = th.mxcnt := rfl
@[simp] theorem Thread.retire_epc (th : Thread) (c : Nat) : (th.retire c).epc = th.epc := rfl
@[simp] theorem Thread.retire_cause (th : Thread) (c : Nat) : (th.retire c).cause = th.cause := rfl
@[simp] theorem Thread.retire_eval (th : Thread) (c : Nat) : (th.retire c).eval = th.eval := rfl
@[simp] theorem Thread.retire_eskip (th : Thread) (c : Nat) : (th.retire c).eskip = th.eskip := rfl
@[simp] theorem Thread.retire_emode (th : Thread) (c : Nat) : (th.retire c).emode = th.emode := rfl
@[simp] theorem Thread.retire_head (th : Thread) (c : Nat) : (th.retire c).head = th.head := rfl
@[simp] theorem Thread.retire_window (th : Thread) (c : Nat) : (th.retire c).window = th.window := rfl
@[simp] theorem Thread.retire_wake (th : Thread) (c : Nat) : (th.retire c).wake = th.wake := rfl
@[simp] theorem Thread.retire_kind (th : Thread) (c : Nat) : (th.retire c).kind = th.kind := rfl
@[simp] theorem Thread.retire_again (th : Thread) (c : Nat) : (th.retire c).again = th.again := rfl
@[simp] theorem Thread.retire_trapUntil (th : Thread) (c : Nat) : (th.retire c).trapUntil = th.trapUntil := rfl
@[simp] theorem Thread.retire_pending (th : Thread) (c : Nat) : (th.retire c).pending = th.pending := rfl
@[simp] theorem Thread.retire_owed (th : Thread) (c : Nat) : (th.retire c).owed = th.owed := rfl
@[simp] theorem Thread.retire_lastIssue (th : Thread) (c : Nat) : (th.retire c).lastIssue = th.lastIssue := rfl
@[simp] theorem Thread.retire_evalOf (th : Thread) (c : Nat) : (th.retire c).evalOf = th.evalOf := rfl
@[simp] theorem Thread.retire_copies (th : Thread) (c : Nat) : (th.retire c).copies = th.copies := rfl
@[simp] theorem Thread.retire_bound (th : Thread) (c : Nat) : (th.retire c).bound = th.bound := rfl
@[simp] theorem Thread.retire_preempt (th : Thread) (c : Nat) : (th.retire c).preempt = th.preempt := rfl
@[simp] theorem Thread.retire_skip (th : Thread) (c : Nat) : (th.retire c).skip = th.skip := rfl

/-! ### `Thread.countShadow` -/

@[simp] theorem Thread.countShadow_place (th : Thread) : (th.countShadow).place = th.place := rfl
@[simp] theorem Thread.countShadow_x (th : Thread) : (th.countShadow).x = th.x := rfl
@[simp] theorem Thread.countShadow_v (th : Thread) : (th.countShadow).v = th.v := rfl
@[simp] theorem Thread.countShadow_m (th : Thread) : (th.countShadow).m = th.m := rfl
@[simp] theorem Thread.countShadow_pc (th : Thread) : (th.countShadow).pc = th.pc := rfl
@[simp] theorem Thread.countShadow_mode (th : Thread) : (th.countShadow).mode = th.mode := rfl
@[simp] theorem Thread.countShadow_fflags (th : Thread) : (th.countShadow).fflags = th.fflags := rfl
@[simp] theorem Thread.countShadow_frm (th : Thread) : (th.countShadow).frm = th.frm := rfl
@[simp] theorem Thread.countShadow_ftrap (th : Thread) : (th.countShadow).ftrap = th.ftrap := rfl
@[simp] theorem Thread.countShadow_flagorg (th : Thread) : (th.countShadow).flagorg = th.flagorg := rfl
@[simp] theorem Thread.countShadow_mult (th : Thread) : (th.countShadow).mult = th.mult := rfl
@[simp] theorem Thread.countShadow_live (th : Thread) : (th.countShadow).live = th.live := rfl
@[simp] theorem Thread.countShadow_wid (th : Thread) : (th.countShadow).wid = th.wid := rfl
@[simp] theorem Thread.countShadow_widself (th : Thread) : (th.countShadow).widself = th.widself := rfl
@[simp] theorem Thread.countShadow_lctx (th : Thread) : (th.countShadow).lctx = th.lctx := rfl
@[simp] theorem Thread.countShadow_cell (th : Thread) : (th.countShadow).cell = th.cell := rfl
@[simp] theorem Thread.countShadow_instret (th : Thread) : (th.countShadow).instret = th.instret := rfl
@[simp] theorem Thread.countShadow_privbase (th : Thread) : (th.countShadow).privbase = th.privbase := rfl
@[simp] theorem Thread.countShadow_utvec (th : Thread) : (th.countShadow).utvec = th.utvec := rfl
@[simp] theorem Thread.countShadow_uepc (th : Thread) : (th.countShadow).uepc = th.uepc := rfl
@[simp] theorem Thread.countShadow_ucause (th : Thread) : (th.countShadow).ucause = th.ucause := rfl
@[simp] theorem Thread.countShadow_uval (th : Thread) : (th.countShadow).uval = th.uval := rfl
@[simp] theorem Thread.countShadow_uskip (th : Thread) : (th.countShadow).uskip = th.uskip := rfl
@[simp] theorem Thread.countShadow_mxcfg (th : Thread) : (th.countShadow).mxcfg = th.mxcfg := rfl
@[simp] theorem Thread.countShadow_mxcnt (th : Thread) : (th.countShadow).mxcnt = th.mxcnt := rfl
@[simp] theorem Thread.countShadow_epc (th : Thread) : (th.countShadow).epc = th.epc := rfl
@[simp] theorem Thread.countShadow_cause (th : Thread) : (th.countShadow).cause = th.cause := rfl
@[simp] theorem Thread.countShadow_eval (th : Thread) : (th.countShadow).eval = th.eval := rfl
@[simp] theorem Thread.countShadow_eskip (th : Thread) : (th.countShadow).eskip = th.eskip := rfl
@[simp] theorem Thread.countShadow_emode (th : Thread) : (th.countShadow).emode = th.emode := rfl
@[simp] theorem Thread.countShadow_wait (th : Thread) : (th.countShadow).wait = th.wait := rfl
@[simp] theorem Thread.countShadow_wake (th : Thread) : (th.countShadow).wake = th.wake := rfl
@[simp] theorem Thread.countShadow_kind (th : Thread) : (th.countShadow).kind = th.kind := rfl
@[simp] theorem Thread.countShadow_again (th : Thread) : (th.countShadow).again = th.again := rfl
@[simp] theorem Thread.countShadow_trapUntil (th : Thread) : (th.countShadow).trapUntil = th.trapUntil := rfl
@[simp] theorem Thread.countShadow_pending (th : Thread) : (th.countShadow).pending = th.pending := rfl
@[simp] theorem Thread.countShadow_owed (th : Thread) : (th.countShadow).owed = th.owed := rfl
@[simp] theorem Thread.countShadow_redo (th : Thread) : (th.countShadow).redo = th.redo := rfl
@[simp] theorem Thread.countShadow_entered (th : Thread) : (th.countShadow).entered = th.entered := rfl
@[simp] theorem Thread.countShadow_lastIssue (th : Thread) : (th.countShadow).lastIssue = th.lastIssue := rfl
@[simp] theorem Thread.countShadow_lastRetire (th : Thread) : (th.countShadow).lastRetire = th.lastRetire := rfl
@[simp] theorem Thread.countShadow_evalOf (th : Thread) : (th.countShadow).evalOf = th.evalOf := rfl
@[simp] theorem Thread.countShadow_copies (th : Thread) : (th.countShadow).copies = th.copies := rfl
@[simp] theorem Thread.countShadow_bound (th : Thread) : (th.countShadow).bound = th.bound := rfl
@[simp] theorem Thread.countShadow_preempt (th : Thread) : (th.countShadow).preempt = th.preempt := rfl
@[simp] theorem Thread.countShadow_skip (th : Thread) : (th.countShadow).skip = th.skip := rfl

/-! ### `Thread.endWindow` -/

@[simp] theorem Thread.endWindow_place (th : Thread) : (th.endWindow).place = th.place := rfl
@[simp] theorem Thread.endWindow_x (th : Thread) : (th.endWindow).x = th.x := rfl
@[simp] theorem Thread.endWindow_v (th : Thread) : (th.endWindow).v = th.v := rfl
@[simp] theorem Thread.endWindow_m (th : Thread) : (th.endWindow).m = th.m := rfl
@[simp] theorem Thread.endWindow_pc (th : Thread) : (th.endWindow).pc = th.pc := rfl
@[simp] theorem Thread.endWindow_mode (th : Thread) : (th.endWindow).mode = th.mode := rfl
@[simp] theorem Thread.endWindow_fflags (th : Thread) : (th.endWindow).fflags = th.fflags := rfl
@[simp] theorem Thread.endWindow_frm (th : Thread) : (th.endWindow).frm = th.frm := rfl
@[simp] theorem Thread.endWindow_ftrap (th : Thread) : (th.endWindow).ftrap = th.ftrap := rfl
@[simp] theorem Thread.endWindow_flagorg (th : Thread) : (th.endWindow).flagorg = th.flagorg := rfl
@[simp] theorem Thread.endWindow_mult (th : Thread) : (th.endWindow).mult = th.mult := rfl
@[simp] theorem Thread.endWindow_live (th : Thread) : (th.endWindow).live = th.live := rfl
@[simp] theorem Thread.endWindow_wid (th : Thread) : (th.endWindow).wid = th.wid := rfl
@[simp] theorem Thread.endWindow_widself (th : Thread) : (th.endWindow).widself = th.widself := rfl
@[simp] theorem Thread.endWindow_lctx (th : Thread) : (th.endWindow).lctx = th.lctx := rfl
@[simp] theorem Thread.endWindow_cell (th : Thread) : (th.endWindow).cell = th.cell := rfl
@[simp] theorem Thread.endWindow_instret (th : Thread) : (th.endWindow).instret = th.instret := rfl
@[simp] theorem Thread.endWindow_privbase (th : Thread) : (th.endWindow).privbase = th.privbase := rfl
@[simp] theorem Thread.endWindow_utvec (th : Thread) : (th.endWindow).utvec = th.utvec := rfl
@[simp] theorem Thread.endWindow_uepc (th : Thread) : (th.endWindow).uepc = th.uepc := rfl
@[simp] theorem Thread.endWindow_ucause (th : Thread) : (th.endWindow).ucause = th.ucause := rfl
@[simp] theorem Thread.endWindow_uval (th : Thread) : (th.endWindow).uval = th.uval := rfl
@[simp] theorem Thread.endWindow_uskip (th : Thread) : (th.endWindow).uskip = th.uskip := rfl
@[simp] theorem Thread.endWindow_mxcfg (th : Thread) : (th.endWindow).mxcfg = th.mxcfg := rfl
@[simp] theorem Thread.endWindow_mxcnt (th : Thread) : (th.endWindow).mxcnt = th.mxcnt := rfl
@[simp] theorem Thread.endWindow_epc (th : Thread) : (th.endWindow).epc = th.epc := rfl
@[simp] theorem Thread.endWindow_cause (th : Thread) : (th.endWindow).cause = th.cause := rfl
@[simp] theorem Thread.endWindow_eval (th : Thread) : (th.endWindow).eval = th.eval := rfl
@[simp] theorem Thread.endWindow_eskip (th : Thread) : (th.endWindow).eskip = th.eskip := rfl
@[simp] theorem Thread.endWindow_emode (th : Thread) : (th.endWindow).emode = th.emode := rfl
@[simp] theorem Thread.endWindow_head (th : Thread) : (th.endWindow).head = th.head := rfl
@[simp] theorem Thread.endWindow_wait (th : Thread) : (th.endWindow).wait = th.wait := rfl
@[simp] theorem Thread.endWindow_wake (th : Thread) : (th.endWindow).wake = th.wake := rfl
@[simp] theorem Thread.endWindow_kind (th : Thread) : (th.endWindow).kind = th.kind := rfl
@[simp] theorem Thread.endWindow_again (th : Thread) : (th.endWindow).again = th.again := rfl
@[simp] theorem Thread.endWindow_trapUntil (th : Thread) : (th.endWindow).trapUntil = th.trapUntil := rfl
@[simp] theorem Thread.endWindow_pending (th : Thread) : (th.endWindow).pending = th.pending := rfl
@[simp] theorem Thread.endWindow_owed (th : Thread) : (th.endWindow).owed = th.owed := rfl
@[simp] theorem Thread.endWindow_redo (th : Thread) : (th.endWindow).redo = th.redo := rfl
@[simp] theorem Thread.endWindow_entered (th : Thread) : (th.endWindow).entered = th.entered := rfl
@[simp] theorem Thread.endWindow_lastIssue (th : Thread) : (th.endWindow).lastIssue = th.lastIssue := rfl
@[simp] theorem Thread.endWindow_lastRetire (th : Thread) : (th.endWindow).lastRetire = th.lastRetire := rfl
@[simp] theorem Thread.endWindow_evalOf (th : Thread) : (th.endWindow).evalOf = th.evalOf := rfl
@[simp] theorem Thread.endWindow_copies (th : Thread) : (th.endWindow).copies = th.copies := rfl
@[simp] theorem Thread.endWindow_bound (th : Thread) : (th.endWindow).bound = th.bound := rfl
@[simp] theorem Thread.endWindow_preempt (th : Thread) : (th.endWindow).preempt = th.preempt := rfl
@[simp] theorem Thread.endWindow_skip (th : Thread) : (th.endWindow).skip = th.skip := rfl

/-! ### `Thread.issueHead` -/

@[simp] theorem Thread.issueHead_place (th : Thread) (c : Nat) (op : HeadOp) (d : Dest) (la : Nat) (r : List Nat) : (th.issueHead c op d la r).place = th.place := rfl
@[simp] theorem Thread.issueHead_x (th : Thread) (c : Nat) (op : HeadOp) (d : Dest) (la : Nat) (r : List Nat) : (th.issueHead c op d la r).x = th.x := rfl
@[simp] theorem Thread.issueHead_v (th : Thread) (c : Nat) (op : HeadOp) (d : Dest) (la : Nat) (r : List Nat) : (th.issueHead c op d la r).v = th.v := rfl
@[simp] theorem Thread.issueHead_m (th : Thread) (c : Nat) (op : HeadOp) (d : Dest) (la : Nat) (r : List Nat) : (th.issueHead c op d la r).m = th.m := rfl
@[simp] theorem Thread.issueHead_mode (th : Thread) (c : Nat) (op : HeadOp) (d : Dest) (la : Nat) (r : List Nat) : (th.issueHead c op d la r).mode = th.mode := rfl
@[simp] theorem Thread.issueHead_fflags (th : Thread) (c : Nat) (op : HeadOp) (d : Dest) (la : Nat) (r : List Nat) : (th.issueHead c op d la r).fflags = th.fflags := rfl
@[simp] theorem Thread.issueHead_frm (th : Thread) (c : Nat) (op : HeadOp) (d : Dest) (la : Nat) (r : List Nat) : (th.issueHead c op d la r).frm = th.frm := rfl
@[simp] theorem Thread.issueHead_ftrap (th : Thread) (c : Nat) (op : HeadOp) (d : Dest) (la : Nat) (r : List Nat) : (th.issueHead c op d la r).ftrap = th.ftrap := rfl
@[simp] theorem Thread.issueHead_flagorg (th : Thread) (c : Nat) (op : HeadOp) (d : Dest) (la : Nat) (r : List Nat) : (th.issueHead c op d la r).flagorg = th.flagorg := rfl
@[simp] theorem Thread.issueHead_mult (th : Thread) (c : Nat) (op : HeadOp) (d : Dest) (la : Nat) (r : List Nat) : (th.issueHead c op d la r).mult = th.mult := rfl
@[simp] theorem Thread.issueHead_live (th : Thread) (c : Nat) (op : HeadOp) (d : Dest) (la : Nat) (r : List Nat) : (th.issueHead c op d la r).live = th.live := rfl
@[simp] theorem Thread.issueHead_wid (th : Thread) (c : Nat) (op : HeadOp) (d : Dest) (la : Nat) (r : List Nat) : (th.issueHead c op d la r).wid = th.wid := rfl
@[simp] theorem Thread.issueHead_widself (th : Thread) (c : Nat) (op : HeadOp) (d : Dest) (la : Nat) (r : List Nat) : (th.issueHead c op d la r).widself = th.widself := rfl
@[simp] theorem Thread.issueHead_lctx (th : Thread) (c : Nat) (op : HeadOp) (d : Dest) (la : Nat) (r : List Nat) : (th.issueHead c op d la r).lctx = th.lctx := rfl
@[simp] theorem Thread.issueHead_cell (th : Thread) (c : Nat) (op : HeadOp) (d : Dest) (la : Nat) (r : List Nat) : (th.issueHead c op d la r).cell = th.cell := rfl
@[simp] theorem Thread.issueHead_instret (th : Thread) (c : Nat) (op : HeadOp) (d : Dest) (la : Nat) (r : List Nat) : (th.issueHead c op d la r).instret = th.instret := rfl
@[simp] theorem Thread.issueHead_privbase (th : Thread) (c : Nat) (op : HeadOp) (d : Dest) (la : Nat) (r : List Nat) : (th.issueHead c op d la r).privbase = th.privbase := rfl
@[simp] theorem Thread.issueHead_utvec (th : Thread) (c : Nat) (op : HeadOp) (d : Dest) (la : Nat) (r : List Nat) : (th.issueHead c op d la r).utvec = th.utvec := rfl
@[simp] theorem Thread.issueHead_uepc (th : Thread) (c : Nat) (op : HeadOp) (d : Dest) (la : Nat) (r : List Nat) : (th.issueHead c op d la r).uepc = th.uepc := rfl
@[simp] theorem Thread.issueHead_ucause (th : Thread) (c : Nat) (op : HeadOp) (d : Dest) (la : Nat) (r : List Nat) : (th.issueHead c op d la r).ucause = th.ucause := rfl
@[simp] theorem Thread.issueHead_uval (th : Thread) (c : Nat) (op : HeadOp) (d : Dest) (la : Nat) (r : List Nat) : (th.issueHead c op d la r).uval = th.uval := rfl
@[simp] theorem Thread.issueHead_uskip (th : Thread) (c : Nat) (op : HeadOp) (d : Dest) (la : Nat) (r : List Nat) : (th.issueHead c op d la r).uskip = th.uskip := rfl
@[simp] theorem Thread.issueHead_mxcfg (th : Thread) (c : Nat) (op : HeadOp) (d : Dest) (la : Nat) (r : List Nat) : (th.issueHead c op d la r).mxcfg = th.mxcfg := rfl
@[simp] theorem Thread.issueHead_mxcnt (th : Thread) (c : Nat) (op : HeadOp) (d : Dest) (la : Nat) (r : List Nat) : (th.issueHead c op d la r).mxcnt = th.mxcnt := rfl
@[simp] theorem Thread.issueHead_epc (th : Thread) (c : Nat) (op : HeadOp) (d : Dest) (la : Nat) (r : List Nat) : (th.issueHead c op d la r).epc = th.epc := rfl
@[simp] theorem Thread.issueHead_cause (th : Thread) (c : Nat) (op : HeadOp) (d : Dest) (la : Nat) (r : List Nat) : (th.issueHead c op d la r).cause = th.cause := rfl
@[simp] theorem Thread.issueHead_eval (th : Thread) (c : Nat) (op : HeadOp) (d : Dest) (la : Nat) (r : List Nat) : (th.issueHead c op d la r).eval = th.eval := rfl
@[simp] theorem Thread.issueHead_eskip (th : Thread) (c : Nat) (op : HeadOp) (d : Dest) (la : Nat) (r : List Nat) : (th.issueHead c op d la r).eskip = th.eskip := rfl
@[simp] theorem Thread.issueHead_emode (th : Thread) (c : Nat) (op : HeadOp) (d : Dest) (la : Nat) (r : List Nat) : (th.issueHead c op d la r).emode = th.emode := rfl
@[simp] theorem Thread.issueHead_wait (th : Thread) (c : Nat) (op : HeadOp) (d : Dest) (la : Nat) (r : List Nat) : (th.issueHead c op d la r).wait = th.wait := rfl
@[simp] theorem Thread.issueHead_wake (th : Thread) (c : Nat) (op : HeadOp) (d : Dest) (la : Nat) (r : List Nat) : (th.issueHead c op d la r).wake = th.wake := rfl
@[simp] theorem Thread.issueHead_kind (th : Thread) (c : Nat) (op : HeadOp) (d : Dest) (la : Nat) (r : List Nat) : (th.issueHead c op d la r).kind = th.kind := rfl
@[simp] theorem Thread.issueHead_again (th : Thread) (c : Nat) (op : HeadOp) (d : Dest) (la : Nat) (r : List Nat) : (th.issueHead c op d la r).again = th.again := rfl
@[simp] theorem Thread.issueHead_trapUntil (th : Thread) (c : Nat) (op : HeadOp) (d : Dest) (la : Nat) (r : List Nat) : (th.issueHead c op d la r).trapUntil = th.trapUntil := rfl
@[simp] theorem Thread.issueHead_pending (th : Thread) (c : Nat) (op : HeadOp) (d : Dest) (la : Nat) (r : List Nat) : (th.issueHead c op d la r).pending = th.pending := rfl
@[simp] theorem Thread.issueHead_owed (th : Thread) (c : Nat) (op : HeadOp) (d : Dest) (la : Nat) (r : List Nat) : (th.issueHead c op d la r).owed = th.owed := rfl
@[simp] theorem Thread.issueHead_lastIssue (th : Thread) (c : Nat) (op : HeadOp) (d : Dest) (la : Nat) (r : List Nat) : (th.issueHead c op d la r).lastIssue = th.lastIssue := rfl
@[simp] theorem Thread.issueHead_lastRetire (th : Thread) (c : Nat) (op : HeadOp) (d : Dest) (la : Nat) (r : List Nat) : (th.issueHead c op d la r).lastRetire = th.lastRetire := rfl
@[simp] theorem Thread.issueHead_evalOf (th : Thread) (c : Nat) (op : HeadOp) (d : Dest) (la : Nat) (r : List Nat) : (th.issueHead c op d la r).evalOf = th.evalOf := rfl
@[simp] theorem Thread.issueHead_copies (th : Thread) (c : Nat) (op : HeadOp) (d : Dest) (la : Nat) (r : List Nat) : (th.issueHead c op d la r).copies = th.copies := rfl
@[simp] theorem Thread.issueHead_bound (th : Thread) (c : Nat) (op : HeadOp) (d : Dest) (la : Nat) (r : List Nat) : (th.issueHead c op d la r).bound = th.bound := rfl
@[simp] theorem Thread.issueHead_preempt (th : Thread) (c : Nat) (op : HeadOp) (d : Dest) (la : Nat) (r : List Nat) : (th.issueHead c op d la r).preempt = th.preempt := rfl
@[simp] theorem Thread.issueHead_skip (th : Thread) (c : Nat) (op : HeadOp) (d : Dest) (la : Nat) (r : List Nat) : (th.issueHead c op d la r).skip = th.skip := rfl

/-! ### `Thread.completeHead` -/

@[simp] theorem Thread.completeHead_place (th : Thread) (c : Nat) : (th.completeHead c).place = th.place := rfl
@[simp] theorem Thread.completeHead_x (th : Thread) (c : Nat) : (th.completeHead c).x = th.x := rfl
@[simp] theorem Thread.completeHead_v (th : Thread) (c : Nat) : (th.completeHead c).v = th.v := rfl
@[simp] theorem Thread.completeHead_m (th : Thread) (c : Nat) : (th.completeHead c).m = th.m := rfl
@[simp] theorem Thread.completeHead_pc (th : Thread) (c : Nat) : (th.completeHead c).pc = th.pc := rfl
@[simp] theorem Thread.completeHead_mode (th : Thread) (c : Nat) : (th.completeHead c).mode = th.mode := rfl
@[simp] theorem Thread.completeHead_fflags (th : Thread) (c : Nat) : (th.completeHead c).fflags = th.fflags := rfl
@[simp] theorem Thread.completeHead_frm (th : Thread) (c : Nat) : (th.completeHead c).frm = th.frm := rfl
@[simp] theorem Thread.completeHead_ftrap (th : Thread) (c : Nat) : (th.completeHead c).ftrap = th.ftrap := rfl
@[simp] theorem Thread.completeHead_flagorg (th : Thread) (c : Nat) : (th.completeHead c).flagorg = th.flagorg := rfl
@[simp] theorem Thread.completeHead_mult (th : Thread) (c : Nat) : (th.completeHead c).mult = th.mult := rfl
@[simp] theorem Thread.completeHead_live (th : Thread) (c : Nat) : (th.completeHead c).live = th.live := rfl
@[simp] theorem Thread.completeHead_wid (th : Thread) (c : Nat) : (th.completeHead c).wid = th.wid := rfl
@[simp] theorem Thread.completeHead_widself (th : Thread) (c : Nat) : (th.completeHead c).widself = th.widself := rfl
@[simp] theorem Thread.completeHead_lctx (th : Thread) (c : Nat) : (th.completeHead c).lctx = th.lctx := rfl
@[simp] theorem Thread.completeHead_cell (th : Thread) (c : Nat) : (th.completeHead c).cell = th.cell := rfl
@[simp] theorem Thread.completeHead_privbase (th : Thread) (c : Nat) : (th.completeHead c).privbase = th.privbase := rfl
@[simp] theorem Thread.completeHead_utvec (th : Thread) (c : Nat) : (th.completeHead c).utvec = th.utvec := rfl
@[simp] theorem Thread.completeHead_uepc (th : Thread) (c : Nat) : (th.completeHead c).uepc = th.uepc := rfl
@[simp] theorem Thread.completeHead_ucause (th : Thread) (c : Nat) : (th.completeHead c).ucause = th.ucause := rfl
@[simp] theorem Thread.completeHead_uval (th : Thread) (c : Nat) : (th.completeHead c).uval = th.uval := rfl
@[simp] theorem Thread.completeHead_uskip (th : Thread) (c : Nat) : (th.completeHead c).uskip = th.uskip := rfl
@[simp] theorem Thread.completeHead_mxcfg (th : Thread) (c : Nat) : (th.completeHead c).mxcfg = th.mxcfg := rfl
@[simp] theorem Thread.completeHead_mxcnt (th : Thread) (c : Nat) : (th.completeHead c).mxcnt = th.mxcnt := rfl
@[simp] theorem Thread.completeHead_epc (th : Thread) (c : Nat) : (th.completeHead c).epc = th.epc := rfl
@[simp] theorem Thread.completeHead_cause (th : Thread) (c : Nat) : (th.completeHead c).cause = th.cause := rfl
@[simp] theorem Thread.completeHead_eval (th : Thread) (c : Nat) : (th.completeHead c).eval = th.eval := rfl
@[simp] theorem Thread.completeHead_eskip (th : Thread) (c : Nat) : (th.completeHead c).eskip = th.eskip := rfl
@[simp] theorem Thread.completeHead_emode (th : Thread) (c : Nat) : (th.completeHead c).emode = th.emode := rfl
@[simp] theorem Thread.completeHead_window (th : Thread) (c : Nat) : (th.completeHead c).window = th.window := rfl
@[simp] theorem Thread.completeHead_wait (th : Thread) (c : Nat) : (th.completeHead c).wait = th.wait := rfl
@[simp] theorem Thread.completeHead_wake (th : Thread) (c : Nat) : (th.completeHead c).wake = th.wake := rfl
@[simp] theorem Thread.completeHead_kind (th : Thread) (c : Nat) : (th.completeHead c).kind = th.kind := rfl
@[simp] theorem Thread.completeHead_again (th : Thread) (c : Nat) : (th.completeHead c).again = th.again := rfl
@[simp] theorem Thread.completeHead_trapUntil (th : Thread) (c : Nat) : (th.completeHead c).trapUntil = th.trapUntil := rfl
@[simp] theorem Thread.completeHead_pending (th : Thread) (c : Nat) : (th.completeHead c).pending = th.pending := rfl
@[simp] theorem Thread.completeHead_owed (th : Thread) (c : Nat) : (th.completeHead c).owed = th.owed := rfl
@[simp] theorem Thread.completeHead_redo (th : Thread) (c : Nat) : (th.completeHead c).redo = th.redo := rfl
@[simp] theorem Thread.completeHead_entered (th : Thread) (c : Nat) : (th.completeHead c).entered = th.entered := rfl
@[simp] theorem Thread.completeHead_lastIssue (th : Thread) (c : Nat) : (th.completeHead c).lastIssue = th.lastIssue := rfl
@[simp] theorem Thread.completeHead_evalOf (th : Thread) (c : Nat) : (th.completeHead c).evalOf = th.evalOf := rfl
@[simp] theorem Thread.completeHead_copies (th : Thread) (c : Nat) : (th.completeHead c).copies = th.copies := rfl
@[simp] theorem Thread.completeHead_bound (th : Thread) (c : Nat) : (th.completeHead c).bound = th.bound := rfl
@[simp] theorem Thread.completeHead_preempt (th : Thread) (c : Nat) : (th.completeHead c).preempt = th.preempt := rfl
@[simp] theorem Thread.completeHead_skip (th : Thread) (c : Nat) : (th.completeHead c).skip = th.skip := rfl

end Sys2Proof.Machine
end

