-- ==== Sys2Proof/Laws/Schedule.lean ====
section
/-!
SUPPORT. What the step and the schedule answer: what a machine does by itself, what comes from the agenda, and
what the acceptance of a request at a slice leaves of a state.
-/
namespace Sys2Proof.Machine

/-! ### The step -/

/-- With nothing coming from outside, the step is the machine's own. -/
theorem step_of_agenda_nil {s : State} (h : s.agenda = []) : step s = ownStep s := by simp [step, h]

/-- An outside event is taken as it stands. -/
theorem step_of_event {s : State} {i : Instr} {rest : List Instr} (h : s.agenda = i :: rest) (he : (encode i).isSome = false) :
    step s = exec i { s with agenda := rest } := by simp [step, h, he]

/-- An encoded instruction in the agenda is a step of the machine's own. -/
theorem step_of_idle {s : State} {i : Instr} {rest : List Instr} (h : s.agenda = i :: rest) (he : (encode i).isSome = true) :
    step s = ownStep { s with agenda := rest } := by simp [step, h, he]

/-- Every way in which a cycle ends: a barrier's check, a WFI's limit, or the next cycle. -/
theorem endPart_cases (s : State) :
    (∃ n i, barrierDue s = some (n, i) ∧ endPart s = exec i { s with phase := n + 2 })
    ∨ (∃ i, barrierDue s = none ∧ timeoutDue s = some i ∧ endPart s = exec i s)
    ∨ (barrierDue s = none ∧ timeoutDue s = none ∧ endPart s = .next (endCycle s)) := by
  unfold endPart
  cases hb : barrierDue s with
  | some p => exact .inl ⟨p.1, p.2, rfl, rfl⟩
  | none =>
    cases ht : timeoutDue s with
    | some i => exact .inr (.inl ⟨i, rfl, rfl, rfl⟩)
    | none => exact .inr (.inr ⟨rfl, rfl, rfl⟩)

/-- After the cores' issues: the leaves of the threads that have ended, an engine's event, or the end of the cycle. -/
theorem enginePart_cases (s : State) :
    (s.ended ≠ [] ∧ enginePart s = .next (closeLeaves s))
    ∨ (s.ended = [] ∧ ∃ i, dueAfter s = some i ∧ enginePart s = exec i { s with phase := 1 })
    ∨ (s.ended = [] ∧ dueAfter s = none ∧ enginePart s = endPart s) := by
  unfold enginePart
  cases he : s.ended with
  | cons x l => exact .inl ⟨by simp, by simp⟩
  | nil =>
    cases h : dueAfter s with
    | some i => exact .inr (.inl ⟨rfl, i, rfl, by simp⟩)
    | none => exact .inr (.inr ⟨rfl, rfl, by simp⟩)

/-- Every way in which the machine's own step can come about: an event or an issue while the cores issue, else what the engines do, else
the end of the cycle. -/
theorem ownStep_cases (s : State) :
    (∃ i, s.phase = 0 ∧ dueBefore s = some i ∧ ownStep s = exec i s)
    ∨ (∃ core t th, s.phase = 0 ∧ dueBefore s = none ∧ nextIssue s = some (core, t, th) ∧ ownStep s = issue s core t th)
    ∨ (s.phase = 0 ∧ dueBefore s = none ∧ nextIssue s = none ∧ ownStep s = enginePart s)
    ∨ (s.phase = 1 ∧ ownStep s = enginePart s)
    ∨ (2 ≤ s.phase ∧ ownStep s = endPart s) := by
  unfold ownStep
  split
  · rename_i h0
    cases hd : dueBefore s with
    | some i => exact .inl ⟨i, h0, rfl, rfl⟩
    | none =>
      cases hn : nextIssue s with
      | some p => exact .inr (.inl ⟨p.1, p.2.1, p.2.2, h0, rfl, rfl, rfl⟩)
      | none => exact .inr (.inr (.inl ⟨h0, rfl, rfl, rfl⟩))
  · rename_i h1; exact .inr (.inr (.inr (.inl ⟨h1, rfl⟩)))
  · rename_i h0 h1
    refine .inr (.inr (.inr (.inr ⟨?_, rfl⟩)))
    rcases hp : s.phase with _ | _ | n
    · exact absurd hp h0
    · exact absurd hp h1
    · omega

/-- The events of the machine's own step: each comes from the state, with the phase of its cycle. -/
theorem ownStep_event_or_issue (s : State) :
    (∃ i p, ownStep s = exec i { s with phase := p }) ∨ (∃ core t th, ownStep s = issue s core t th)
    ∨ ownStep s = .next (closeLeaves s) ∨ ownStep s = .next (endCycle s) := by
  have hs : ({ s with phase := s.phase } : State) = s := rfl
  have hend : (∃ i p, endPart s = exec i { s with phase := p }) ∨ endPart s = .next (endCycle s) := by
    rcases endPart_cases s with ⟨n, i, _, h⟩ | ⟨i, _, _, h⟩ | ⟨_, _, h⟩
    · exact .inl ⟨i, n + 2, h⟩
    · exact .inl ⟨i, s.phase, h⟩
    · exact .inr h
  have heng : (∃ i p, enginePart s = exec i { s with phase := p }) ∨ enginePart s = .next (closeLeaves s)
      ∨ enginePart s = .next (endCycle s) := by
    rcases enginePart_cases s with ⟨_, h⟩ | ⟨_, i, _, h⟩ | ⟨_, _, h⟩
    · exact .inr (.inl h)
    · exact .inl ⟨i, 1, h⟩
    · rw [h]; exact hend.imp id .inr
  rcases ownStep_cases s with ⟨i, _, _, h⟩ | ⟨core, t, th, _, _, _, h⟩ | ⟨_, _, _, h⟩ | ⟨_, h⟩ | ⟨_, h⟩
  · exact .inl ⟨i, s.phase, h⟩
  · exact .inr (.inl ⟨core, t, th, h⟩)
  · rw [h]; exact heng.imp id .inr
  · rw [h]; exact heng.imp id .inr
  · rw [h]; exact hend.imp id (fun x => .inr (.inr x))

/-- Every way in which a step can come about: an outside event, or a step of the machine's own. -/
theorem step_cases (s : State) :
    (∃ i rest, s.agenda = i :: rest ∧ step s = exec i { s with agenda := rest }) ∨ ∃ rest, step s = ownStep { s with agenda := rest } := by
  cases h : s.agenda with
  | nil => exact .inr ⟨[], by rw [step_of_agenda_nil h, ← h]⟩
  | cons i rest =>
    cases he : (encode i).isSome with
    | true => exact .inr ⟨rest, step_of_idle h he⟩
    | false => exact .inl ⟨i, rest, rfl, step_of_event h he⟩

/-! ### The acceptance of a request at a slice (R302) -/

@[simp] theorem State.acceptPort_threads (s : State) (c pa : Nat) : (s.acceptPort c pa).threads = s.threads := rfl
@[simp] theorem State.acceptPort_cores (s : State) (c pa : Nat) : (s.acceptPort c pa).cores = s.cores := rfl
@[simp] theorem State.acceptPort_clusters (s : State) (c pa : Nat) : (s.acceptPort c pa).clusters = s.clusters := rfl
@[simp] theorem State.acceptPort_launches (s : State) (c pa : Nat) : (s.acceptPort c pa).launches = s.launches := rfl
@[simp] theorem State.acceptPort_mem (s : State) (c pa : Nat) : (s.acceptPort c pa).mem = s.mem := rfl
@[simp] theorem State.acceptPort_sram (s : State) (c pa : Nat) : (s.acceptPort c pa).sram = s.sram := rfl
@[simp] theorem State.acceptPort_tags (s : State) (c pa : Nat) : (s.acceptPort c pa).tags = s.tags := rfl
@[simp] theorem State.acceptPort_bad (s : State) (c pa : Nat) : (s.acceptPort c pa).bad = s.bad := rfl
@[simp] theorem State.acceptPort_evals (s : State) (c pa : Nat) : (s.acceptPort c pa).evals = s.evals := rfl
@[simp] theorem State.acceptPort_dir (s : State) (c pa : Nat) : (s.acceptPort c pa).dir = s.dir := rfl
@[simp] theorem State.acceptPort_helben (s : State) (c pa : Nat) : (s.acceptPort c pa).helben = s.helben := rfl
@[simp] theorem State.acceptPort_host (s : State) (c pa : Nat) : (s.acceptPort c pa).host = s.host := rfl
@[simp] theorem State.acceptPort_fabric (s : State) (c pa : Nat) : (s.acceptPort c pa).fabric = s.fabric := rfl
@[simp] theorem State.acceptPort_agenda (s : State) (c pa : Nat) : (s.acceptPort c pa).agenda = s.agenda := rfl
@[simp] theorem State.acceptPort_cycle (s : State) (c pa : Nat) : (s.acceptPort c pa).cycle = s.cycle := rfl
@[simp] theorem State.acceptPort_seq (s : State) (c pa : Nat) : (s.acceptPort c pa).seq = s.seq := rfl
@[simp] theorem State.acceptPort_free (s : State) (c pa : Nat) : (s.acceptPort c pa).free = s.free := rfl
@[simp] theorem State.acceptPort_badSram (s : State) (c pa : Nat) : (s.acceptPort c pa).badSram = s.badSram := rfl
@[simp] theorem State.acceptPort_late (s : State) (c pa : Nat) : (s.acceptPort c pa).late = s.late := rfl
@[simp] theorem State.acceptPort_ended (s : State) (c pa : Nat) : (s.acceptPort c pa).ended = s.ended := rfl

@[simp] theorem State.acceptLoc_threads (s : State) (c : Nat) (l : Loc) : (s.acceptLoc c l).threads = s.threads := by cases l <;> rfl
@[simp] theorem State.acceptLoc_cores (s : State) (c : Nat) (l : Loc) : (s.acceptLoc c l).cores = s.cores := by cases l <;> rfl
@[simp] theorem State.acceptLoc_clusters (s : State) (c : Nat) (l : Loc) : (s.acceptLoc c l).clusters = s.clusters := by cases l <;> rfl
@[simp] theorem State.acceptLoc_launches (s : State) (c : Nat) (l : Loc) : (s.acceptLoc c l).launches = s.launches := by cases l <;> rfl
@[simp] theorem State.acceptLoc_mem (s : State) (c : Nat) (l : Loc) : (s.acceptLoc c l).mem = s.mem := by cases l <;> rfl
@[simp] theorem State.acceptLoc_sram (s : State) (c : Nat) (l : Loc) : (s.acceptLoc c l).sram = s.sram := by cases l <;> rfl
@[simp] theorem State.acceptLoc_tags (s : State) (c : Nat) (l : Loc) : (s.acceptLoc c l).tags = s.tags := by cases l <;> rfl
@[simp] theorem State.acceptLoc_bad (s : State) (c : Nat) (l : Loc) : (s.acceptLoc c l).bad = s.bad := by cases l <;> rfl
@[simp] theorem State.acceptLoc_badSram (s : State) (c : Nat) (l : Loc) : (s.acceptLoc c l).badSram = s.badSram := by cases l <;> rfl
@[simp] theorem State.acceptLoc_evals (s : State) (c : Nat) (l : Loc) : (s.acceptLoc c l).evals = s.evals := by cases l <;> rfl
@[simp] theorem State.acceptLoc_dir (s : State) (c : Nat) (l : Loc) : (s.acceptLoc c l).dir = s.dir := by cases l <;> rfl
@[simp] theorem State.acceptLoc_helben (s : State) (c : Nat) (l : Loc) : (s.acceptLoc c l).helben = s.helben := by cases l <;> rfl
@[simp] theorem State.acceptLoc_host (s : State) (c : Nat) (l : Loc) : (s.acceptLoc c l).host = s.host := by cases l <;> rfl
@[simp] theorem State.acceptLoc_fabric (s : State) (c : Nat) (l : Loc) : (s.acceptLoc c l).fabric = s.fabric := by cases l <;> rfl
@[simp] theorem State.acceptLoc_agenda (s : State) (c : Nat) (l : Loc) : (s.acceptLoc c l).agenda = s.agenda := by cases l <;> rfl
@[simp] theorem State.acceptLoc_cycle (s : State) (c : Nat) (l : Loc) : (s.acceptLoc c l).cycle = s.cycle := by cases l <;> rfl
@[simp] theorem State.acceptLoc_seq (s : State) (c : Nat) (l : Loc) : (s.acceptLoc c l).seq = s.seq := by cases l <;> rfl
@[simp] theorem State.acceptLoc_free (s : State) (c : Nat) (l : Loc) : (s.acceptLoc c l).free = s.free := by cases l <;> rfl
@[simp] theorem State.acceptLoc_late (s : State) (c : Nat) (l : Loc) : (s.acceptLoc c l).late = s.late := by cases l <;> rfl
@[simp] theorem State.acceptLoc_ended (s : State) (c : Nat) (l : Loc) : (s.acceptLoc c l).ended = s.ended := by cases l <;> rfl

/-- The home slice's pointer stands past the core's port, and every other die is as it was. -/
theorem State.acceptPort_die (s : State) (c pa : Nat) :
    ((s.acceptPort c pa).die (homeSlice s pa / 128)).ports.find (homeSlice s pa % 128)
      = some ((slicePort (homeSlice s pa / 128) c + 1) % 40)
    ∧ ∀ k, k ≠ homeSlice s pa / 128 → (s.acceptPort c pa).dies.find k = s.dies.find k := by
  constructor
  · simp [State.acceptPort, State.acceptAt, State.die, State.putDie]
  · intro k hk
    exact SMap.find_put_other _ _ _ _ hk

end Sys2Proof.Machine
end

