-- ==== Sys2Proof/Laws/Shapes.lean ====
section
/-!
SUPPORT. What the shapes of a meaning answer: for each of `runThread`, `runJump`, `runState` and `runCheck` its value on each path
and one lemma that says everything it can do; and what taking a trap, retiring with a result and waiting leave of a state.
-/
namespace Sys2Proof.Machine

/-! ### The current thread -/

theorem State.thread_of_current {s : State} {th : Thread} (h : s.current = some th) :
    s.thread s.cur = some th ∧ th.isBound = true := by
  unfold State.current at h
  split at h
  · split at h
    · cases h; exact ⟨‹_›, ‹_›⟩
    · cases h
  · cases h

@[simp] theorem State.thread_putThread_same (s : State) (t : Nat) (th : Thread) : (s.putThread t th).thread t = some th :=
  SMap.find_put_same _ _ _

theorem State.thread_putThread_other (s : State) {t k : Nat} (th : Thread) (h : k ≠ t) : (s.putThread t th).thread k = s.thread k :=
  SMap.find_put_other _ _ _ _ h

theorem State.core_putCore_same (s : State) (c : Nat) (x : Core) : (s.putCore c x).core c = x := by
  simp [State.core, State.putCore]

theorem State.core_putCore_other (s : State) {c k : Nat} (x : Core) (h : k ≠ c) : (s.putCore c x).core k = s.core k := by
  simp [State.core, State.putCore, SMap.find_put_other _ _ _ _ h]

theorem State.cluster_putCluster_same (s : State) (c : Nat) (x : Cluster) : (s.putCluster c x).cluster c = x := by
  simp [State.cluster, State.putCluster]

theorem State.cluster_putCluster_other (s : State) {c k : Nat} (x : Cluster) (h : k ≠ c) : (s.putCluster c x).cluster k = s.cluster k := by
  simp [State.cluster, State.putCluster, SMap.find_put_other _ _ _ _ h]

theorem State.bank_putBank_same (s : State) (b : Nat) (x : Bank) : (s.putBank b x).bank b = x := by
  simp [State.bank, State.putBank, State.cluster_putCluster_same]

theorem State.bank_putBank_other (s : State) {b k : Nat} (x : Bank) (h : k ≠ b) : (s.putBank b x).bank k = s.bank k := by
  unfold State.bank State.putBank
  by_cases e : k / 32 = b / 32
  · have : k % 32 ≠ b % 32 := by omega
    rw [e]
    simp [State.cluster_putCluster_same, SMap.find_put_other _ _ _ _ this]
  · simp [State.cluster_putCluster_other _ _ e]

theorem State.barrier_putBarrier_same (s : State) (c i : Nat) (x : Barrier) : (s.putBarrier c i x).barrier c i = x := by
  simp [State.barrier, State.putBarrier, State.cluster_putCluster_same]

/-! ### The shapes -/

theorem runThread_ok {s : State} {k : Thread → Except Trap Thread} {th th' : Thread} (h : s.current = some th) (e : k th = .ok th') :
    runThread s k = .next (s.putThread s.cur (th'.retire s.cycle).countShadow) := by
  simp [runThread, h, e]

theorem runThread_trap {s : State} {k : Thread → Except Trap Thread} {th : Thread} {tr : Trap} (h : s.current = some th)
    (n : th.head = none) (e : k th = .error tr) : runThread s k = .next (s.takeTrap s.cur tr) := by
  simp [runThread, h, e, n]

/-- Everything `runThread` can do: its thread retires, or, without a head, its trap is taken; under a head nothing happens yet. -/
theorem runThread_cases {s u : State} {k : Thread → Except Trap Thread} (h : runThread s k = .next u) :
    ∃ th, s.current = some th ∧ ((∃ th', k th = .ok th' ∧ u = s.putThread s.cur (th'.retire s.cycle).countShadow)
      ∨ ∃ tr, k th = .error tr ∧ (th.head.isSome = true ∧ u = s ∨ th.head = none ∧ u = s.takeTrap s.cur tr)) := by
  unfold runThread at h
  split at h
  · cases h
  · rename_i th hc
    refine ⟨th, hc, ?_⟩
    split at h
    · cases h; exact .inl ⟨_, ‹_›, rfl⟩
    · refine .inr ⟨_, ‹_›, ?_⟩
      split at h
      · cases h; exact .inl ⟨‹_›, rfl⟩
      · rename_i n; cases h; exact .inr ⟨by simpa using n, rfl⟩

theorem runJump_ok {s : State} {k : Thread → Except Trap (Thread × Word)} {th th' : Thread} {p : Word} (h : s.current = some th)
    (e : k th = .ok (th', p)) : runJump s k = .next (s.putThread s.cur (th'.retireTo s.cycle p).endWindow) := by
  simp [runJump, h, e]

theorem runJump_trap {s : State} {k : Thread → Except Trap (Thread × Word)} {th : Thread} {tr : Trap} (h : s.current = some th)
    (e : k th = .error tr) : runJump s k = .next (s.takeTrap s.cur tr) := by
  simp [runJump, h, e]

/-- Everything `runJump` can do. -/
theorem runJump_cases {s u : State} {k : Thread → Except Trap (Thread × Word)} (h : runJump s k = .next u) :
    ∃ th, s.current = some th ∧ ((∃ th' p, k th = .ok (th', p) ∧ u = s.putThread s.cur (th'.retireTo s.cycle p).endWindow)
      ∨ ∃ tr, k th = .error tr ∧ u = s.takeTrap s.cur tr) := by
  unfold runJump at h
  split at h
  · cases h
  · rename_i th hc
    refine ⟨th, hc, ?_⟩
    split at h
    · cases h; exact .inl ⟨_, _, ‹_›, rfl⟩
    · cases h; exact .inr ⟨_, ‹_›, rfl⟩

theorem runState_ok {s s' : State} {k : Thread → Except Trap State} {th : Thread} (h : s.current = some th) (e : k th = .ok s') :
    runState s k = .next s' := by
  simp [runState, h, e]

theorem runState_trap {s : State} {k : Thread → Except Trap State} {th : Thread} {tr : Trap} (h : s.current = some th)
    (e : k th = .error tr) : runState s k = .next (s.takeTrap s.cur tr) := by
  simp [runState, h, e]

/-- Everything `runState` can do. -/
theorem runState_cases {s u : State} {k : Thread → Except Trap State} (h : runState s k = .next u) :
    ∃ th, s.current = some th ∧ (k th = .ok u ∨ ∃ tr, k th = .error tr ∧ u = s.takeTrap s.cur tr) := by
  unfold runState at h
  split at h
  · cases h
  · rename_i th hc
    refine ⟨th, hc, ?_⟩
    split at h
    · cases h; exact .inl ‹_›
    · cases h; exact .inr ⟨_, ‹_›, rfl⟩

/-- Only ATTRIBUTE_CONFLICT leaves more than its trap. -/
theorem State.holdLeaf_of_ne {s : State} {tr : Trap} (h : tr.cause ≠ .attributeConflict) : s.holdLeaf tr = s := by
  simp [State.holdLeaf, h]

/-- What the holding of a leaf can change: its A bit in memory and the TLBs of the core and its cluster. -/
theorem State.holdLeaf_cases (s : State) (tr : Trap) :
    s.holdLeaf tr = s ∨ ∃ c e, s.holdLeaf tr = touch s (some c) .load { entry := e, walked := true } := by
  unfold State.holdLeaf
  repeat' split
  all_goals first | exact .inl rfl | exact .inr ⟨_, _, rfl⟩

/-- The holding of a leaf keeps every thread. -/
@[simp] theorem State.holdLeaf_threads (s : State) (tr : Trap) : (s.holdLeaf tr).threads = s.threads := by
  rcases State.holdLeaf_cases s tr with h | ⟨c, e, h⟩
  · rw [h]
  · rw [h]; unfold touch; split <;> rfl

theorem runCheck_ok {s s' : State} {k : Thread → Check State} {th : Thread} (h : s.current = some th) (e : k th = .ok s') :
    runCheck s k = .next s' := by
  simp [runCheck, h, e]

theorem runCheck_trap {s : State} {k : Thread → Check State} {th : Thread} {tr : Trap} (h : s.current = some th)
    (e : k th = .error (some tr)) : runCheck s k = .next ((s.holdLeaf tr).takeTrap s.cur tr) := by
  simp [runCheck, h, e]

theorem runCheck_wait {s : State} {k : Thread → Check State} {th : Thread} (h : s.current = some th) (e : k th = .error none) :
    runCheck s k = .next s := by
  simp [runCheck, h, e]

/-- Everything `runCheck` can do: its effect, its trap, or nothing yet where it must wait. -/
theorem runCheck_cases {s u : State} {k : Thread → Check State} (h : runCheck s k = .next u) :
    ∃ th, s.current = some th ∧ (k th = .ok u ∨ (∃ tr, k th = .error (some tr) ∧ u = (s.holdLeaf tr).takeTrap s.cur tr)
      ∨ (k th = .error none ∧ u = s)) := by
  unfold runCheck at h
  split at h
  · cases h
  · rename_i th hc
    refine ⟨th, hc, ?_⟩
    split at h
    · cases h; exact .inl ‹_›
    · cases h; exact .inr (.inl ⟨_, ‹_›, rfl⟩)
    · cases h; exact .inr (.inr ⟨‹_›, rfl⟩)

/-! ### Retiring and waiting -/

theorem State.retireX_eq {s : State} {th : Thread} (h : s.thread s.cur = some th) (d : Reg) (v : Word) :
    s.retireX d v = s.putThread s.cur ((th.setX d v).retire s.cycle).endWindow := by
  simp [State.retireX, h]

theorem State.retireCur_eq {s : State} {th : Thread} (h : s.thread s.cur = some th) :
    s.retireCur = s.putThread s.cur (th.retire s.cycle).endWindow := by
  simp [State.retireCur, h]

theorem State.waitCur_eq {s : State} {th : Thread} (h : s.thread s.cur = some th) (w : Wait) :
    s.waitCur w = s.putThread s.cur { th with wait := some w, entered := .no }.endWindow := by
  simp [State.waitCur, h]

/-- A retirement with a result changes the threads alone. -/
theorem State.retireX_frame (s : State) (d : Reg) (v : Word) :
    s.retireX d v = { s with threads := (s.retireX d v).threads } := by
  unfold State.retireX
  split <;> rfl

/-! ### Taking a trap -/

/-- Trap entry keeps every register of the three files and every user CSR that it does not save into (R134). -/
theorem Thread.enterTrap_keeps (th : Thread) (k : CtxCsrs) (c : Nat) (pc : Word) (tr : Trap) (skip : Word) :
    let t := th.enterTrap k c pc tr skip
    t.x = th.x ∧ t.v = th.v ∧ t.m = th.m ∧ t.fflags = th.fflags ∧ t.frm = th.frm ∧ t.ftrap = th.ftrap ∧ t.flagorg = th.flagorg
      ∧ t.mult = th.mult ∧ t.live = th.live ∧ t.wid = th.wid ∧ t.lctx = th.lctx ∧ t.instret = th.instret ∧ t.privbase = th.privbase
      ∧ t.mxcfg = th.mxcfg ∧ t.mxcnt = th.mxcnt ∧ t.place = th.place ∧ t.pending = th.pending := by
  unfold Thread.enterTrap
  dsimp only
  split <;> simp

/-- Trap entry ends the head, the window, the wait and the re-execution, and the slot is TRAPPING for 16 cycles (R85, R134). -/
theorem Thread.enterTrap_ends (th : Thread) (k : CtxCsrs) (c : Nat) (pc : Word) (tr : Trap) (skip : Word) :
    let t := th.enterTrap k c pc tr skip
    t.head = none ∧ t.window = none ∧ t.wait = none ∧ t.redo = none ∧ t.trapUntil = some (c + 16) := by
  unfold Thread.enterTrap
  dsimp only
  split <;> simp

/-- A trap that a handler takes changes its thread alone. -/
theorem State.takeTrapAt_eq {s : State} {t : Nat} {th : Thread} (h : s.thread t = some th) (pc : Word) (tr : Trap) (skip : Nat)
    (f : (th.entered == .supervisor && tr.cause.ofFetch) = false) (m : tr.cause ≠ .machineCheck) (c : tr.cause ≠ .contextSwapError) :
    s.takeTrapAt t pc tr skip = s.putThread t (th.enterTrap (s.csrsOf th) s.cycle pc tr (BitVec.ofNat 64 skip)) := by
  simp [State.takeTrapAt, h, f, m, c]

theorem State.takeTrap_eq {s : State} {t : Nat} {th : Thread} (h : s.thread t = some th) (tr : Trap)
    (f : (th.entered == .supervisor && tr.cause.ofFetch) = false) (m : tr.cause ≠ .machineCheck) (c : tr.cause ≠ .contextSwapError) :
    s.takeTrap t tr = s.putThread t (th.enterTrap (s.csrsOf th) s.cycle th.pc tr 0) := by
  simp only [State.takeTrap, h]
  exact State.takeTrapAt_eq h _ _ _ f m c

/-- Everything taking a trap can do to a thread that is there. -/
theorem State.takeTrapAt_cases {s : State} {t : Nat} {th : Thread} (h : s.thread t = some th) (pc : Word) (tr : Trap) (skip : Nat) :
    s.takeTrapAt t pc tr skip = s.machineCheck t tr.val
      ∨ s.takeTrapAt t pc tr skip = (s.removeThread t).logEvent .contextSwapError th.place.handle tr.val 0
      ∨ s.takeTrapAt t pc tr skip = s.putThread t (th.enterTrap (s.csrsOf th) s.cycle pc tr (BitVec.ofNat 64 skip)) := by
  simp only [State.takeTrapAt, h]
  split
  · exact .inl rfl
  · split
    · exact .inr (.inl rfl)
    · exact .inr (.inr rfl)

/-! ### Stores -/

theorem State.read_storePa_other (s : State) (keep : Option Nat) (a n v x : Nat) (h : x < a ∨ a + n ≤ x) :
    (s.storePa keep a n v).mem.read x = s.mem.read x :=
  Memory.read_writeLE_other _ _ _ _ _ h

theorem State.wf_storePa {s : State} (h : s.mem.wf = true) (keep : Option Nat) (a n v : Nat) : (s.storePa keep a n v).mem.wf = true :=
  Memory.wf_writeLE h _ _ _

end Sys2Proof.Machine
end

