-- ==== Sys2Proof/Tests/Slice0.lean ====
section
/-!
SUPPORT. Tests: the decoding of one word of every row of the opcode table, the words the decoder refuses, an ill-formed
term for each check of `wellFormed`, and the spec's worked examples. The words are the table's match word with the fields at the
places that the table gives them; the expected results of the rest stand in the section named.
-/
namespace Sys2Proof.Tests
open Sys2Proof Sys2Proof.Machine

-- One theorem after another: their kernel evaluations would else each take a thread.
set_option Elab.async false

/-! ### Words -/

/-- Every word decodes to its instruction, which is well formed and encodes to it. -/
noncomputable def decodesAll (l : List (BitVec 32 × Instr)) : Bool :=
  l.all (fun p => (match decode p.1 with
    | .ok i => decide (i = p.2)
    | .error _ => false) && p.2.wellFormed && (encode p.2 == some p.1))

/-- Every row of the opcode table with major 0x01. -/
theorem test_words_alu : decodesAll
   [
    (0x001B6481, .add 9 22 13), (0x005B6481, .sub 9 22 13), (0x009B6481, .and 9 22 13), (0x00DB6481, .or 9 22 13),
    (0x011B6481, .xor 9 22 13), (0x015B6481, .andn 9 22 13), (0x019B6481, .orn 9 22 13), (0x01DB6481, .xnor 9 22 13),
    (0x021B6481, .sll 9 22 13), (0x025B6481, .srl 9 22 13), (0x029B6481, .sra 9 22 13), (0x02DB6481, .rol 9 22 13),
    (0x031B6481, .ror 9 22 13), (0x035B6481, .min 9 22 13), (0x039B6481, .max 9 22 13), (0x03DB6481, .minn 9 22 13),
    (0x041B6481, .maxn 9 22 13), (0x045B6481, .slt 9 22 13), (0x049B6481, .sltn 9 22 13), (0x04DB6481, .seq 9 22 13),
    (0x051B6481, .sne 9 22 13), (0x055B6481, .addw 9 22 13), (0x059B6481, .subw 9 22 13), (0x05DB6481, .sllw 9 22 13),
    (0x061B6481, .srlw 9 22 13), (0x065B6481, .sraw 9 22 13)] = true := by decide +kernel

/-- Every row of the opcode table with major 0x02, 0x03. -/
theorem test_words_muldiv_bit : decodesAll
   [
    (0x001B6482, .mul 9 22 13), (0x005B6482, .mulh 9 22 13), (0x009B6482, .mulhn 9 22 13), (0x00DB6482, .mulw 9 22 13),
    (0x511B6482, .div 9 22 13 5), (0x515B6482, .divn 9 22 13 5), (0x519B6482, .rem 9 22 13 5),
    (0x51DB6482, .remn 9 22 13 5), (0x521B6482, .divw 9 22 13 5), (0x525B6482, .remw 9 22 13 5), (0x00016483, .clz 9 22),
    (0x00416483, .ctz 9 22), (0x00816483, .popc 9 22), (0x00C16483, .brev 9 22), (0x01016483, .bswap 9 22)] = true := by decide +kernel

/-- Every row of the opcode table with major 0x04 to 0x0E. -/
theorem test_words_imm : decodesAll
   [
    (0x478F6484, .addi 9 22 9159), (0x478F6485, .andi 9 22 9159), (0x478F6486, .ori 9 22 9159),
    (0x478F6487, .xori 9 22 9159), (0x478F6488, .slti 9 22 9159), (0x478F6489, .sltni 9 22 9159),
    (0x004B648A, .slli 9 22 37), (0x204B648A, .srli 9 22 37), (0x404B648A, .srai 9 22 37), (0x604B648A, .roli 9 22 37),
    (0x804B648A, .rori 9 22 37), (0x0B57648B, .bfx 9 22 43 22), (0x0B57648C, .bfi 9 22 43 22), (0x5A3C748D, .lih 9 369607),
    (0x5A3C748E, .addpc 9 369607)] = true := by decide +kernel

/-- Every row of the opcode table with major 0x10 to 0x1E. -/
theorem test_words_ctrl_mem : decodesAll
   [
    (0x2D50DB10, .beq 22 13 725), (0x2D52DB10, .bne 22 13 725), (0x2D54DB10, .blt 22 13 725), (0x2D56DB10, .bge 22 13 725),
    (0x2D58DB10, .bltn 22 13 725), (0x2D5ADB10, .bgen 22 13 725), (0x9B2D5491, .call 9 635605),
    (0x478F6492, .jmpr 9 22 9159), (0x5AAB6494, .lb 9 22 5 725), (0x5AAB6495, .lh 9 22 5 725), (0x5AAB6496, .lw 9 22 5 725),
    (0x5AAB6497, .ld 9 22 5 725), (0x5AAB6498, .lbn 9 22 5 725), (0x5AAB6499, .lhn 9 22 5 725),
    (0x5AAB649A, .lwn 9 22 5 725), (0x5AAB649B, .sb 9 22 5 725), (0x5AAB649C, .sh 9 22 5 725), (0x5AAB649D, .sw 9 22 5 725),
    (0x5AAB649E, .sd 9 22 5 725)] = true := by decide +kernel

/-- Every row of the opcode table with major 0x1F. -/
theorem test_words_ordered : decodesAll
   [
    (0x01AB649F, .lwo 9 22 5 1 3), (0x05AB649F, .ldo 9 22 5 1 3), (0x09CB649F, .swo 9 22 5 2 3),
    (0x0DCB649F, .sdo 9 22 5 2 3), (0x11E0001F, .fence 3 3), (0x158B601F, .pf 22 5 3), (0x19AB649F, .ltag 9 22 5 1 3),
    (0x1D8B649F, .susp 9 22 5 3), (0x218B649F, .resolve 9 22 5 3), (0x258B649F, .cfail 9 22 5 3),
    (0x29CB601F, .cflush 22 5 2 3), (0x2DCB601F, .cinv 22 5 2 3)] = true := by decide +kernel

/-- Every row of the opcode table with major 0x20, 0x21. -/
theorem test_words_atom : decodesAll
   [
    (0x837764A0, .aadd 9 22 3 3 13 1), (0x8B7764A0, .afadd 9 22 3 3 13), (0x937764A0, .aand 9 22 3 3 13 1),
    (0x9B7764A0, .aor 9 22 3 3 13 1), (0xA37764A0, .axor 9 22 3 3 13 1), (0xAB7764A0, .amin 9 22 3 3 13 1),
    (0xB37764A0, .amax 9 22 3 3 13 1), (0xBB7764A0, .aminn 9 22 3 3 13 1), (0xC37764A0, .amaxn 9 22 3 3 13 1),
    (0xCB7764A0, .afmin 9 22 3 3 13), (0xD37764A0, .afmax 9 22 3 3 13), (0xDB7764A0, .aswp 9 22 3 3 13 1),
    (0xE37764A0, .acas 9 22 3 3 13 1), (0xEB7764A0, .aaddo 9 22 3 3 13 1), (0xF37764A0, .afaddo 9 22 3 3 13),
    (0x136764A1, .smerge 9 22 3 2 13 2)] = true := by decide +kernel

/-- Every row of the opcode table with major 0x22, 0x24, 0x25. -/
theorem test_words_kv_meet_task : decodesAll
   [
    (0x018164A2, .kvrsv 9 22 3), (0x058164A2, .kvtake 9 22 3), (0x098164A2, .kvgive 9 22 3), (0x0D8164A2, .kvshare 9 22 3),
    (0x118164A2, .kvrel 9 22 3), (0x158164A2, .kvpass 9 22 3), (0x198164A2, .kvcow 9 22 3), (0x1D8164A2, .kvscl 9 22 3),
    (0x001B64A4, .meetC 9 22 13), (0x005B64A4, .meetT 9 22 13), (0x008164A4, .mlive 9 22), (0x00C164A4, .mclr 9 22),
    (0x011B64A4, .mlog 9 22 13), (0x000164A5, .spawn 9 22), (0x005B64A5, .spawnx 9 22 13), (0x009B64A5, .cont 9 22 13),
    (0x00C16025, .retire 22), (0x010164A5, .launch 9 22), (0x014004A5, .yield 9)] = true := by decide +kernel

/-- Every row of the opcode table with major 0x26, 0x27, 0x28, 0x29. -/
theorem test_words_msg_copy_csr_sys : decodesAll
   [
    (0x001B64A6, .send 9 22 13), (0x005B64A6, .sendt 9 22 13), (0x008164A6, .waitm 9 22), (0x00C004A6, .recv 9),
    (0x010004A6, .peekm 9), (0x014164A6, .bara 9 22), (0x019B64A6, .barw 9 22 13), (0x01C164A6, .bar 9 22),
    (0x021B64A6, .barex 9 22 13), (0x025B64A6, .barcfg 9 22 13), (0x028164A6, .qres 9 22), (0x02C164A6, .qpub 9 22),
    (0x030164A6, .qacq 9 22), (0x034164A6, .qrel 9 22), (0x039B64A6, .bankcfg 9 22 13), (0x001B64A7, .cpy 9 22 13),
    (0x004164A7, .cpyt 9 22), (0x103004A8, .csrr 9 259), (0x103364A8, .csrw 9 22 259), (0x103564A8, .csrs 9 22 259),
    (0x103764A8, .csrc 9 22 259), (0x00000029, .ecall), (0x00400029, .ebreak), (0x00800029, .tret), (0x00C00029, .fencei),
    (0x011B6029, .tlbinv 22 13), (0x015B64A9, .ctxout 9 22 13), (0x019B64A9, .ctxin 9 22 13), (0x01C16029, .halt 22),
    (0x020164A9, .wfi 9 22)] = true := by decide +kernel

/-- Every row of the opcode table with major 0x30, 0x31. -/
theorem test_words_vfp_vint : decodesAll
   [
    (0x102EB4B0, .vadd 9 6 13 5 1), (0x106EB4B0, .vsub 9 6 13 5 1), (0x10AEB4B0, .vmul 9 6 13 5 1),
    (0x10EEB4B0, .vdiv 9 6 13 5 1), (0x112EB4B0, .vfma 9 6 13 5 1), (0x116EB4B0, .vfms 9 6 13 5 1),
    (0x11AEB4B0, .vfnma 9 6 13 5 1), (0x11EEB4B0, .vmin 9 6 13 5 1), (0x122EB4B0, .vmax 9 6 13 5 1),
    (0x126834B0, .vabs 9 6 5 1), (0x12A834B0, .vneg 9 6 5 1), (0x12E834B0, .vsqrt 9 6 5 1), (0x132834B0, .vrsq 9 6 5 1),
    (0x136834B0, .vrcp 9 6 5 1), (0x13A834B0, .vexp2 9 6 5 1), (0x13E834B0, .vlog2 9 6 5 1), (0x142834B0, .vclass 9 6 5 1),
    (0x402EB4B1, .viadd 9 6 13 5 4), (0x406EB4B1, .visub 9 6 13 5 4), (0x40AEB4B1, .vimul 9 6 13 5 4),
    (0x40EEB4B1, .vand 9 6 13 5 4), (0x412EB4B1, .vor 9 6 13 5 4), (0x416EB4B1, .vxor 9 6 13 5 4),
    (0x41AEB4B1, .vsll 9 6 13 5 4), (0x41EEB4B1, .vsrl 9 6 13 5 4), (0x422EB4B1, .vsra 9 6 13 5 4),
    (0x426EB4B1, .vimin 9 6 13 5 4), (0x42AEB4B1, .vimax 9 6 13 5 4), (0x42EEB4B1, .viminn 9 6 13 5 4),
    (0x432EB4B1, .vimaxn 9 6 13 5 4)] = true := by decide +kernel

/-- Every row of the opcode table with major 0x32, 0x33, 0x34. -/
theorem test_words_vcmp_vmove_vcvt : decodesAll
   [
    (0x402EB0B2, .vcmpEq 1 6 13 5 4), (0x406EB0B2, .vcmpNe 1 6 13 5 4), (0x40AEB0B2, .vcmpLt 1 6 13 5 4),
    (0x40EEB0B2, .vcmpLe 1 6 13 5 4), (0x112EB0B2, .vcmpUn 1 6 13 5 1), (0x416EB0B2, .vcmpLtn 1 6 13 5 4),
    (0x41AEB0B2, .vcmpLen 1 6 13 5 4), (0x402EB4B3, .vsel 9 6 13 5 4), (0x406EB4B3, .vperm 9 6 13 5 4),
    (0x40A8ACB3, .vbcast 9 21 5 4), (0x40EE8AB3, .vext 21 13 5 4), (0x4128ACB3, .vins 9 21 5 4), (0x416804B3, .viota 9 5 4),
    (0x41A834B3, .vmv 9 6 5 4), (0x41EEB4B3, .vslide 9 6 13 5 4), (0x002834B4, .vcvtF32Bf16 9 6 5),
    (0x006834B4, .vcvtF32F16 9 6 5), (0x00A834B4, .vcvtF32E4m3 9 6 5), (0x00E834B4, .vcvtF32E5m2 9 6 5),
    (0x012834B4, .vcvtBf16F32 9 6 5), (0x016834B4, .vcvtF16F32 9 6 5), (0x01A834B4, .vcvtE4m3F32 9 6 5),
    (0x01E834B4, .vcvtE5m2F32 9 6 5), (0x022834B4, .vcvtF32I32 9 6 5), (0x026834B4, .vcvtI32F32 9 6 5),
    (0x02A834B4, .vcvtI8I32 9 6 5), (0x02E834B4, .vcvtI32I8 9 6 5)] = true := by decide +kernel

/-- Every row of the opcode table with major 0x35, 0x36, 0x37. -/
theorem test_words_vred_mask_sfp : decodesAll
   [
    (0x402834B5, .vrsum 9 6 5 4), (0x406834B5, .vrmax 9 6 5 4), (0x40A834B5, .vrmin 9 6 5 4), (0x40E834B5, .vscan 9 6 5 4),
    (0x412834B5, .vtopk 9 6 5 4), (0x0001B0B6, .mand 1 6 3), (0x0041B0B6, .mor 1 6 3), (0x0081B0B6, .mxor 1 6 3),
    (0x00C030B6, .mnot 1 6), (0x410184B6, .mpop 9 3 4), (0x414184B6, .mfirst 9 3 4), (0x018538B6, .mset 1 7 10),
    (0x001B64B7, .fadd 9 22 13), (0x005B64B7, .fsub 9 22 13), (0x009B64B7, .fmul 9 22 13), (0x00DB64B7, .fdiv 9 22 13),
    (0x010164B7, .fsqrt 9 22), (0x015B64B7, .ffma 9 22 13), (0x019B64B7, .fmin 9 22 13), (0x01DB64B7, .fmax 9 22 13),
    (0x021B64B7, .feq 9 22 13), (0x025B64B7, .flt 9 22 13), (0x029B64B7, .fle 9 22 13), (0x02C164B7, .fclass 9 22),
    (0x030164B7, .fexp2 9 22), (0x034164B7, .flog2 9 22), (0x038564B7, .fcvtif 9 22 2), (0x03C564B7, .fcvtfi 9 22 2),
    (0x040564B7, .fcvtff 9 22 2)] = true := by decide +kernel

/-- Every row of the opcode table with major 0x38 to 0x41. -/
theorem test_words_vmem_matrix : decodesAll
   [
    (0xD5AB64B8, .vld 9 22 5 5 213), (0xD5AB64B9, .vst 9 22 5 5 213), (0xD5AB64BA, .vlds 9 22 5 5 213),
    (0xD5AB64BB, .vsts 9 22 5 5 213), (0xD5AB64BC, .vgath 9 22 5 5 213), (0xD5AB64BD, .vscat 9 22 5 5 213),
    (0xD5AB64BE, .vstq 9 22 5 5 213), (0x501B6B40, .mmaE4m3 6 2 22 13 5), (0x511B6B40, .mmaE5m2 6 2 22 13 5),
    (0x521B6B40, .mmaE4m3e5m2 6 2 22 13 5), (0x531B6B40, .mmaE5m2e4m3 6 2 22 13 5), (0x541B6B40, .mmaBf16 6 2 22 13 5),
    (0x551B6B40, .mmaF16 6 2 22 13 5), (0x561B6B40, .mmaI8 6 2 22 13 5), (0x571B6B40, .mmaMint 6 2 22 13 5),
    (0x00000341, .macqFp 6), (0x00000741, .macqInt 6), (0x01000341, .mrel 6), (0x02000341, .mzero 6),
    (0x03016041, .mcfg 22), (0x541B6341, .mld 6 22 13 5), (0x551B6341, .mst 6 22 13 5), (0x061AB341, .mrdv 6 11 13),
    (0x071AB341, .mwrv 6 11 13), (0x08000041, .mflgFold), (0x08000441, .mflgClear), (0x08000841, .mflgRaise)] = true := by decide +kernel
/-- Words that the chapters write out: 03 (the LD from its la example), 06, 08, 09, 11, 16, 20 and 02. -/
theorem test_words_of_the_spec : decodesAll
    [(0x000A4181, .add 3 4 5), (0x21107302, .div 6 7 8 2), (0xFFFE6284, .addi 5 6 0x7FFF), (0x0001238D, .lih 7 18),
     (0xFFD26290, .bne 5 6 0xFFD), (0x00010091, .call 1 16), (0x0064A497, .ld 9 10 2 3), (0x05A0B09F, .ldo 1 11 0 1 3),
     (0x0148A3A0, .aadd 7 10 4 0 5 0), (0x001002A8, .csrr 5 1), (0x0220C238, .vld 4 12 0 1 2), (0x004A4181, .sub 3 4 5),
     (0x0016A140, .mmaE4m3 2 0 10 11 0), (0x00000004, .addi 0 0 0), (0x00001012, .jmpr 0 1 0), (0x0190628B, .bfx 5 6 8 3),
     (0x0006848A, .slli 9 8 3), (0xFFB46410, .blt 8 6 0xFFB), (0x00A0A69E, .sd 13 10 0 5), (0x11E0001F, .fence 3 3),
     (0x1200001F, .fence 0 4), (0x00126028, .csrw 0 6 1), (0x00805024, .mlive 0 5), (0x002B43A4, .meetC 7 20 21),
     (0x012D4324, .mlog 6 20 22), (0x01132A30, .vfma 4 5 6 2 0), (0x008190B2, .vcmpLt 1 2 3 0 0), (0x30804BB3, .vbcast 7 9 0 3),
     (0x510102B6, .mpop 5 2 5), (0x018020B6, .mset 1 4 0), (0x0966A221, .smerge 4 10 3 2 5 1), (0x1980A4A2, .kvcow 9 10 3)]
    = true := by decide +kernel

/-- The decoder refuses every word of the list with the cause given. -/
noncomputable def refusesAll (e : DecodeError) (l : List (BitVec 32)) : Bool :=
  l.all (fun w => match decode w with
    | .ok _ => false
    | .error x => decide (x = e))

/-- R64 order 2: majors 0x7F and 0x00, ALU fn 26, and AFADD with op [4] = 0 (R51). -/
theorem test_words_illegal : refusesAll .illegalOpcode [0xFFFFFFFF, 0x00000000, 0x06800001, 0x0948A3A0] = true := by decide

/-- R64 order 3: ADD with la 1, AADD at scope 5, a non-returning AADD.acq, VADD with ty 3, SMERGE whose run passes v15 and with
d [4] set, VLD with bit 11, MMA with mode 3, VCMP with vd bit 3, LDO with ord 2, ECALL with a register, VSCAT of v15. -/
theorem test_words_reserved : refusesAll .reservedField
    [0x100A4181, 0x014AA3A0, 0x0158A020, 0x300190B0, 0x1966A721, 0x0966AA21, 0x0220CA38, 0x0016AD40, 0x008194B2, 0x05C0B09F,
     0x000000A9, 0x0000A7BD] = true := by decide

/-! ### Well-formedness -/

/-- One ill-formed term for each check of `wellFormed`. -/
theorem test_illFormed : ([
    .lwo 1 2 0 2 3, .ldo 1 2 0 3 3, .swo 1 2 0 1 3, .sdo 1 2 0 3 3, .fence 0 5, .pf 1 0 7, .ltag 31 2 0 0 3, .ltag 0 2 0 0 3,
    .ltag 1 2 0 2 3, .susp 1 2 0 5, .resolve 1 2 0 6, .cfail 1 2 0 7, .cflush 1 0 1 3, .cinv 1 0 3 3, .aadd 0 1 3 1 2 0,
    .afadd 1 2 5 0 3, .acas 1 2 3 0 31 0, .smerge 0 1 3 1 2 0, .smerge 0 1 3 0 2 4, .smerge 13 1 3 0 2 3, .kvrsv 1 2 2, .kvscl 1 2 0,
    .recv 0, .recv 31, .cpy 1 31 2, .cpy 1 2 31, .vlds 1 31 0 0 0, .vsts 1 31 0 0 0, .vgath 15 1 0 0 0, .vscat 15 1 0 0 0,
    .mmaE4m3 0 3 1 2 0, .mmaI8 0 3 1 2 0, .mmaMint 0 0 1 31 0, .vadd 1 2 3 0 3, .viadd 1 2 3 0 2, .viota 1 0 6, .vcmpEq 1 2 3 0 6,
    .vcmpUn 1 2 3 0 3, .vcmpLtn 1 2 3 0 1, .mpop 1 2 6, .fcvtif 1 2 4, .fcvtfi 1 2 4, .fcvtff 1 2 8, .stealRequest 4608,
    .meetWindowEnd 4608, .copyTransfer 144, .barrierPhaseComplete 0 16, .launchCompletion 4096, .coherentLineRequest 0 (2 ^ 43) .read,
    .helbenNotification (2 ^ 17), .helbenNotification (512 * 36), .hostBar2Read (.bar0 0) 0, .hostBar2Write 4 0 0, .hostBar0Write (2 ^ 20) 4 0,
    .linkFlitReplay { link := 16, same := true }, .linkResetRetrain 16, .remoteRequest 256 true { seqno := 0, req := .load 0 8 }, .partitionHalt 256 true 0, .partitionSwap 0 256,
    .powerSense 4 0 0, .powerSense 0 0 16, .launchReplay 4096, .doorbellRing 144, .heldMailboxPosting 4608,
    .bankModeChange 4608] : List Instr).all (fun i => !i.wellFormed) = true := by decide +kernel

/-- Their neighbours at the other side of each bound are well formed. -/
theorem test_wellFormed : ([
    .lwo 1 2 0 1 4, .swo 1 2 0 2 4, .ltag 30 2 0 1 4, .aadd 0 1 4 2 2 0, .aadd 1 1 4 3 2 0, .acas 1 2 3 0 30 0, .smerge 12 1 3 2 2 3,
    .kvrsv 1 2 4, .recv 30, .cpy 1 30 30, .vlds 1 30 0 0 0, .vgath 14 1 0 0 0, .mmaE4m3 0 2 1 2 0, .mmaMint 0 0 1 30 0, .vadd 1 2 3 0 2,
    .viadd 1 2 3 0 5, .vcmpEq 1 2 3 0 5, .fcvtif 1 2 3, .fcvtff 1 2 7, .stealRequest 4607, .barrierPhaseComplete 143 15,
    .launchCompletion 4095, .helbenNotification (512 * 35 + 511), .hostBar2Read (.bar2 8) 8, .hostBar0Write (2 ^ 20 - 8) 8 0,
    .linkFlitReplay { link := 15, same := false }, .partitionHalt 255 true 0, .powerSense 3 0 15] : List Instr).all (fun i => i.wellFormed) = true := by decide +kernel

/-! ### One step on a small state -/

/-- A page of a translation cache. -/
def page (va pa : Nat) (bits : Word) : TlbEntry :=
  { asid := 0, page := va, large := false, pte := bits ||| BitVec.ofNat 64 (pa * 65536), pteAddr := 0x80000 + 8 * va }

/-- The first ten x registers, and zeros. -/
def regs (l : List Word) : Vector Word 32 :=
  Vector.ofFn (fun i => l.getD i.val 0)

/-- Core 0, which caches page 0 plain, page 1 with D, page 2 with L and page 4 readable only, and serves context 0 with TVEC 0x4000. -/
def core0 : Core :=
  { Core.reset with served := [{ lctx := 0, idx := 0, csrs := { CtxCsrs.reset with tvec := 0x4000 }, deficit := 0, starved := 0 }],
                    tlb := [page 0 0 0xDF, page 1 1 0x1DF, page 2 2 0x2DF, page 4 4 0xD3] }

/-- A user thread in slot 0 of core 0 at 0x100 with the x registers given from x1 on. -/
def user (l : List Word) : Thread := { Thread.reset (.slot 0) 0 0 with pc := 0x100, x := regs (0 :: l) }

/-- The package with one thread, and the bytes of DRAM given. -/
def one (th : Thread) (mem : Memory) : State := { State.reset with threads := [(0, th)], cores := [(0, core0)], mem := mem }

/-- Thread 0 after the instruction. -/
def after (i : Instr) (s : State) : Option Thread :=
  match exec i s with
  | .next u => u.thread 0
  | _ => none

/-- x3 of thread 0 after the instruction on x1 = a, x2 = b and x3 = c. -/
def x3 (i : Instr) (a b c : Word) : Option Word := (after i (one (user [a, b, c]) [])).map (fun t => t.getX 3)

/-- What the divide at the head holds (R105). -/
def quotient (i : Instr) (a b : Word) : Option Word :=
  (after i (one (user [a, b]) [])).bind (fun t => t.head.bind (fun h => match h.op with
    | .div _ v _ => some v
    | _ => none))

/-- 06, the divide table (R105). -/
theorem test_divides : [quotient (.div 3 1 2 0) (-21) 5, quotient (.rem 3 1 2 0) (-21) 5, quotient (.divn 3 1 2 0) 0xFFFFFFFFFFFFFFEB 5,
      quotient (.div 3 1 2 0) 0x8000000000000000 (-1), quotient (.rem 3 1 2 0) 0x8000000000000000 (-1),
      quotient (.divw 3 1 2 0) 0x1234567880000000 0xFFFFFFFF, quotient (.div 3 1 2 0) 7 0, quotient (.remw 3 1 2 0) 0x0000000180000007 0]
    = [some (-4), some (-1), some 0x333333333333332F, some 0x8000000000000000, some 0, some 0xFFFFFFFF80000000,
       some 0xFFFFFFFFFFFFFFFF, some 0xFFFFFFFF80000007] := by decide +kernel

/-- 06: SRLW by 0 sign-extends bit 31 (R103); SLTNI with −1 is 0 only for all ones (R107). -/
theorem test_alu_edges : [x3 (.srlw 3 1 2) 0x80000000 0 0, x3 (.sltni 3 1 0x7FFF) 0xFFFFFFFFFFFFFFFF 0 0, x3 (.sltni 3 1 0x7FFF) 5 0 0,
      x3 (.sll 3 1 2) 1 65 0, x3 (.rol 3 1 2) 0x8000000000000001 64 0, x3 (.mulh 3 1 2) (-1) 1 0, x3 (.mulhn 3 1 2) (-1) (-1) 0]
    = [some 0xFFFFFFFF80000000, some 0, some 1, some 2, some 0x8000000000000001, some (-1), some 0xFFFFFFFFFFFFFFFE] := by decide +kernel

/-- R106 on 0 and on one bit, R109: BFI keeps the other bits of X[d]; a field past bit 63 traps RESERVED_FIELD (2) at the word. -/
theorem test_bits : [x3 (.clz 3 1) 0 0 0, x3 (.ctz 3 1) 0x100 0 0, x3 (.brev 3 1) 1 0 0, x3 (.bswap 3 1) 0x0102030405060708 0 0,
      x3 (.bfi 3 1 8 3) 0xFFF5 0 (-1), x3 (.bfx 3 1 60 3) 0x7000000000000000 0 0]
    = [some 64, some 8, some 0x8000000000000000, some 0x0807060504030201, some 0xFFFFFFFFFFFFF5FF, some 7]
  ∧ (after (.bfx 3 1 61 3) (one (user []) [])).map (fun t => (t.cause, t.eval, t.epc, t.pc)) = some (1, 0x100, 0x100, 0x4000) := by decide +kernel

/-- 03: ADDI x0 is discarded (R94); LIH with 18; CALL links; a BNE of −3 words that is taken, and a JMPR to an odd target, which traps
MISALIGNED_FETCH (4) at the JMPR with the target as EVAL and X[d] unchanged (R113). -/
theorem test_control : (after (.addi 0 1 5) (one (user [7]) [])).map (fun t => (t.x.toList.take 2, t.pc)) = some ([0, 7], 0x104)
  ∧ (after (.lih 7 18) (one (user []) [])).map (fun t => t.getX 7) = some 0x12000
  ∧ (after (.call 1 16) (one (user []) [])).map (fun t => (t.getX 1, t.pc)) = some (0x104, 0x140)
  ∧ (after (.bne 1 2 0xFFD) (one (user [1, 2]) [])).map (fun t => t.pc) = some 0xF4
  ∧ (after (.jmpr 1 1 2) (one (user [0x1000]) [])).map (fun t => (t.cause, t.eval, t.epc, t.getX 1, t.instret))
      = some (4, 0x1002, 0x100, 0x1000, 0) := by decide +kernel

/-- R119, R120: LH sign-extends the two bytes, least significant first; SW issues with its pointer scaled by 4; both complete. -/
theorem test_load_store :
    ((after (.lh 5 1 0 1) (one (user [0x1000]) [])).bind (fun t =>
      match exec (.loadDataReturn 0) (one t [(0x1002, 0x34), (0x1003, 0x92)]) with
      | .next u => (u.thread 0).map (fun x => (x.getX 5, x.instret, x.head.isNone))
      | _ => none)) = some (0xFFFFFFFFFFFF9234, 1, true)
  ∧ ((after (.sw 2 1 0 0x7FF) (one (user [0x1000, 0x1122334455667788]) [])).bind (fun t =>
      match exec (.storeAccept 0) (one t []) with
      | .next u => some u.mem
      | _ => none)) = some [(0xFFC, 0x88), (0xFFD, 0x77), (0xFFE, 0x66), (0xFFF, 0x55)] := by decide +kernel

/-- A thread whose context has a page table at 0x10_0000: page 4 is readable only, every other page is not mapped. -/
def walked (l : List Word) : State :=
  (one (user l) [(0x100000, 1), (0x100002, 0x11), (0x110000, 1), (0x110002, 0x12), (0x120020, 0xD3), (0x120022, 4)]).putCore 0
    { core0 with tlb := [], served := [{ lctx := 0, idx := 0, deficit := 0, starved := 0, csrs :=
      { CtxCsrs.reset with tvec := 0x4000, ptbase := 0x100000 } }] }

/-- R116, R151, R152, R11: a misaligned LD traps LOAD_MISALIGNED (16), a store to a page without W STORE_PROTECTION (21), a page that no table
maps LOAD_PAGE_FAULT (18), a reserved space SPACE_INVALID (22), each with the pointer as EVAL; a load of page 4 is admitted. -/
theorem test_access_traps :
    ([(Instr.ld 5 1 0 0, 0x1001), (.sd 5 1 0 0, 0x40000), (.lb 5 1 0 0, 0x90000), (.lb 5 1 0 0, 0x5000000000000000)].map (fun p =>
      (after p.1 (walked [p.2])).map (fun t => [t.cause, t.eval, t.pc])))
    = [some [16, 0x1001, 0x4000], some [21, 0x40000, 0x4000], some [18, 0x90000, 0x4000], some [22, 0x5000000000000000, 0x4000]]
    ∧ (after (.ld 5 1 0 0) (walked [0x40000])).map (fun t => (t.head.isSome, t.pc)) = some (true, 0x104) := by decide +kernel

/-- R95, R123, R96: CSRS of FTRAP gives the old value and keeps 5 bits; an absent number traps CSR_INVALID (61) with it; a supervisor CSR
in user mode PRIVILEGED (2) with the word's address. -/
theorem test_csr : (after (.csrs 3 1 2) (one { user [0x41] with ftrap := 2 } [])).map (fun t => (t.ftrap, t.getX 3)) = some (3, 2)
  ∧ (after (.csrr 3 0x0FF) (one (user []) [])).map (fun t => (t.cause, t.eval)) = some (61, 0xFF)
  ∧ (after (.csrr 3 0x101) (one (user []) [])).map (fun t => (t.cause, t.eval)) = some (2, 0x100) := by decide +kernel

/-- 05: widths (3, 4, 5) and WID 0x5A7 give WF1 2, WF2 13, WF3 7 and WF4 0 (R98). -/
theorem test_work_fields :
    let h : Header := { entry := 0, arg := 0, widths := [3, 4, 5], det := false, strict := false, replay := false, syscomp := false,
                        extents := [8, 16, 32], events := 0, target := 0, dep0 := 0, dep1 := 0, weight := 1, diemask := 1, banks := 0,
                        staging := 0, stagesize := 0 }
    let l : Launch := { hdr := h, x11 := 0, csrs := CtxCsrs.reset, issuer := 0, core := 0, total := 4096, leaves := [], closed := [],
                        lastCore := 0, done := false, budget := 0, area := 0, staged := [], events := [] }
    let s := { one { user [] with lctx := 1, wid := 0x5A7 } [] with launches := [(1, l)] }
    ([0x021, 0x022, 0x023, 0x024].map (fun n => (after (.csrr 3 n) s).map (fun t => t.getX 3))) = [some 2, some 13, some 7, some 0]
    := by decide +kernel

/-- 15: widths (2, 3) and extents (3, 5): index 7 has WID 0xA and index 14 WID 0x14, and 0x05 is no WID. -/
theorem test_work_identifiers :
    let h : Header := { entry := 0, arg := 0, widths := [2, 3], det := false, strict := false, replay := false, syscomp := false,
                        extents := [3, 5], events := 0, target := 0, dep0 := 0, dep1 := 0, weight := 1, diemask := 1, banks := 0,
                        staging := 0, stagesize := 0 }
    [widOfIndex h 7, widOfIndex h 14] = [0xA, 0x14] ∧ [indexOfWid h 0xA, indexOfWid h 0x14, indexOfWid h 0x05] = [some 7, some 14, none]
    := by decide +kernel

/-- A user thread at 0x0020_0100 with UTVEC 0x0020_4000 and DELEG 0x0000_0100_1000_0000, which delegates causes 28 and 40. -/
def delegating : State :=
  (one { user [] with pc := 0x00200100, utvec := 0x00204000 } []).putCore 0 { core0 with served := [{
    lctx := 0, idx := 0, deficit := 0, starved := 0, csrs := { CtxCsrs.reset with tvec := 0x4000, deleg := 0x0000010010000000 } }] }

/-- It has trapped KV_SHARED_WRITE. -/
def delegated : State := delegating.takeTrap 0 { cause := .kvSharedWrite, val := 0x77 }

/-- A load of its handler, at 0x0020_4010, has trapped LOAD_PAGE_FAULT. -/
def nested : State := delegated.takeTrapAt 0 0x00204010 { cause := .loadPageFault, val := 0x88 } 0

/-- 07: KV_SHARED_WRITE (28) enters UTVEC in user mode. -/
theorem test_delegated_trap :
    (delegated.thread 0).map (fun t => [t.uepc, t.ucause, t.uval, t.uskip, t.pc]) = some [0x00200100, 28, 0x77, 0, 0x00204000]
    ∧ (delegated.thread 0).map (fun t => t.mode) = some .user := by decide +kernel

/-- 07: LOAD_PAGE_FAULT (18) in the handler enters TVEC with EMODE user and leaves the user trap registers; TRET then returns to the load
in user mode. -/
theorem test_nested_trap :
    (nested.thread 0).map (fun t => [t.epc, t.cause, t.eval, t.pc, t.uepc, t.ucause]) = some [0x00204010, 18, 0x88, 0x4000, 0x00200100, 28]
    ∧ (nested.thread 0).map (fun t => (t.emode, t.mode)) = some (.user, .supervisor)
    ∧ (after .tret nested).map (fun t => (t.pc, t.mode)) = some (0x00204010, .user) := by decide +kernel

/-- R126: ECALL of a user thread traps ECALL_USER (7) at its own address; HALT in user mode traps PRIVILEGED (2). -/
theorem test_system : (after .ecall (one (user []) [])).map (fun t => (t.cause, t.epc, t.mode, t.pc)) = some (7, 0x100, .supervisor, 0x4000)
  ∧ (after (.halt 1) (one (user []) [])).map (fun t => (t.cause, t.eval)) = some (2, 0x100)
  ∧ (match exec (.halt 1) (one { user [5] with mode := .supervisor } []) with
     | .next u => u.threads.length == 0
     | _ => false) = true := by decide +kernel

/-- 10, the narrowing table (R193). NX is 16, OF 4, UF 8 and NV 1. -/
theorem test_narrowing :
    [e4m3.narrow rne (.fin false 470 0), e4m3.narrow rtz (.fin false 470 0), e4m3.narrow rne (.fin false 464 0),
     e4m3.narrow rtz (.fin false 1000 0), e4m3.narrow rdn (.inf true), e4m3.narrow rne (fp32.decode 0x7FC00000),
     e4m3.narrow rne (.fin false 1 (-10)), e4m3.narrow rne (.fin false 3 (-11)), fp16.narrow rne (.fin false 70000 0),
     e5m2.narrow rne (.fin false 60000 0), toInteger 32 rne (.fin true 5 (-1)), toInteger 32 rtz (.fin false 3000000000 0),
     toInteger 32 rne (fp32.decode 0x7FA00000)]
    = [(0x7E, 20), (0x7E, 16), (0x7E, 16), (0x7E, 20), (0xFE, 20), (0x7F, 0), (0, 24), (1, 24), (0x7BFF, 20), (0x7B, 16),
       (0xFFFFFFFE, 16), (2147483647, 20), (0, 1)] := by decide +kernel

/-- 10: 2^127 × 4 under the four modes (R190); the special operands of R195: LOG2 of +0, the reciprocals of −0, 1 and 2, the square
root of −0, EXP2 of 3 and of −∞, and 0 / 0. -/
theorem test_arithmetic :
    [rne, rtz, rdn, rup].map (fun m => fp32.mul m 0x7F000000 0x40800000) = [(0x7F800000, 20), (0x7F7FFFFF, 20), (0x7F7FFFFF, 20), (0x7F800000, 20)]
    ∧ [fp32.log2 0, fp32.rcp 0x80000000, fp32.rsq 0x3F800000, fp32.rcp 0x40000000, fp32.sqrt rne 0x80000000, fp32.exp2 0x40400000,
       fp32.exp2 0xFF800000, fp32.div rne 0 0] = [(0xFF800000, 2), (0xFF800000, 2), (0x3F800000, 0), (0x3F000000, 0), (0x80000000, 0),
       (0x41000000, 0), (0, 0), (0x7FC00000, 1)] := by decide +kernel

/-- R140: FADD of the largest number to itself with OF enabled traps FP_OVERFLOW (12); EVAL holds OF and NX and X[d] and FFLAGS stay; without,
it writes +∞ and FLAGORG. -/
theorem test_fp_trap :
    (after (.fadd 3 1 1) (one { user [0x7F7FFFFF] with ftrap := 4 } [])).map (fun t => (t.cause, t.eval, t.getX 3, t.fflags)) = some (12, 20, 0, 0)
    ∧ (after (.fadd 3 1 1) (one (user [0x7F7FFFFF]) [])).map (fun t => (t.getX 3, t.fflags, t.flagorg, t.pc)) = some (0x7F800000, 20, 0x100, 0x104)
    := by decide +kernel

/-- 16: MULT 3 adds 3 × 1.0 to 2^24 in one rounding, with NX (R303, R304); MULT 5 in AADD.w, and AADDO.w without it. -/
theorem test_atom_multiplicity :
    atomNew 1 32 0x4B800000 0x3F800000 0 3 rne = (0x4B800002, 16) ∧ atomResult 1 4 0x4B800000 16 = 0x000000104B800000
    ∧ (atomNew 0 32 1 0x33333334 0 5 rne).1 = 5 ∧ (atomNew 13 32 1 0x33333334 0 5 rne).1 = 0x33333335 := by decide +kernel

/-- 20: a VSTQ of 1.3, 300.0 and −1,000.0 under scale 0.5 (R356). -/
theorem test_quantise : [quantise 0x3F000000 0x3FA66666, quantise 0x3F000000 0x43960000, quantise 0x3F000000 0xC47A0000]
    = [((0x42, 16), false), ((0x7E, 20), true), ((0xFE, 20), true)] := by decide +kernel

/-- 08: the hashes of (3, 5), (5, 3) and (7, 7) at 0x0020_0040 on a table in bank 4 of cluster 0, with x8 and x9 live (R162). -/
theorem test_meet_hash :
    [(3, 5), (5, 3), (7, 7)].map (fun p =>
      let h := meetHash { user [0, 0, 0, 0, 0, 0, 0, p.1, p.2] with pc := 0x00200040, live := 0x300 } 4
      (h, meetSet h)) = [(0x0004000000200046, 0x46), (0x0004000000200046, 0x46), (0x0004000000200040, 0x40)] := by decide +kernel

/-- 10: the worked block of scale 2: elements 0 to 4 are 2, −3, 6, 0.125 and 2; with a limit one byte lower it is malformed (R199). -/
theorem test_mint_block :
    let b := [0x80, 0x27, 0xC0, 0x04, 0, 0, 0, 0, 0, 0, 0, 0, 0, 0, 0, 0, 0, 0, 0x80, 0x1A, 0, 0, 0, 0, 0, 0, 0, 0, 0, 0, 0]
    (mintBlock b).map (fun l => (l.take 5).map (fun v => fp32.narrow rne v))
      = some [(0x40000000, 0), (0xC0400000, 0), (0x40C00000, 0), (0x3E000000, 0), (0x40000000, 0)]
    ∧ mintBlock (b.take 30) = none := by decide +kernel

/-- 12: 2^32 + 64 × (0.25 × 0.125) is 2^32 + 2 in FP40, and narrows to FP32 with NX; the exact zero of R234 under RNE. -/
theorem test_matrix_element :
    let r := mmaFloat rne false (some (fp40.decode 0x4F80000000)) (List.replicate 64 (e4m3.decode 0x28)) (List.replicate 64 (e4m3.decode 0x20))
    r = (0x4F80000001, 0) ∧ fp32.narrow rne (fp40.decode r.1) = (0x4F800000, 16)
    ∧ mmaFloat rne false none [e4m3.decode 0x7E, e4m3.decode 0x7E] [e4m3.decode 0x7E, e4m3.decode 0xFE] = (0, 0)
    ∧ (mmaFloat rdn false none [e4m3.decode 0x7E, e4m3.decode 0x7E] [e4m3.decode 0x7E, e4m3.decode 0xFE]).1 = 0x8000000000 := by decide +kernel

/-- R205, R209: VIADD.i16 wraps each enabled element and keeps the others; v1 holds 0x8000 in elements 0 and 1, m1 enables element 0. -/
theorem test_vector_add :
    let t := ((user []).setV 1 0x80008000).setM 1 1
    (after (.viadd 2 1 1 1 4) (one t [])).map (fun x => x.getV 2) = some 0
    ∧ (after (.viadd 1 1 1 1 4) (one t [])).map (fun x => x.getV 1) = some 0x80000000 := by decide +kernel

/-- R217: MSET m1, 4 sets four bits, MNOT of it all the others, and MPOP counts below N. -/
theorem test_masks :
    let t := (user []).setM 2 0xF
    (after (.mset 1 4 0) (one t [])).map (fun x => x.getM 1) = some 0xF
    ∧ (after (.mnot 1 2) (one t [])).map (fun x => x.getM 1) = some (BitVec.allOnes 256 <<< 4)
    ∧ (after (.mpop 3 0 3) (one t [])).map (fun x => x.getX 3) = some 64 := by decide +kernel

/-- R263, R265: SEND to the own core writes 0, and RECV takes the message to X[d] and X[d + 1]; SEND to a cluster field of 36 traps
MAILBOX_INVALID (44) with the handle. -/
theorem test_mailbox :
    (match exec (.send 9 1 2) (one (user [0, 7, 8]) []) with
     | .next u => (after (.recv 4) u).map (fun t => (t.getX 9, t.getX 4, t.getX 5))
     | _ => none) = some (0, 7, 8)
    ∧ (after (.send 9 1 2) (one (user [512 * 36]) [])).map (fun t => (t.cause, t.eval)) = some (44, 512 * 36) := by decide +kernel

/-- R87, R89: a placed SUB x3, x0, x0 at address 0 is fetched, decoded and run by one step. -/
theorem test_step_runs_a_placed_word :
    (match step (State.reset.withFetchWord 32 0x00400181) with
     | .next u => (u.thread 0).map (fun t => (t.pc, t.instret))
     | _ => none) = some (4, 1) := by decide +kernel

/-- R64: the word 0xFFFF_FFFF traps ILLEGAL_OPCODE (0) with its address in EPC and EVAL. -/
theorem test_step_traps_an_illegal_word :
    (match step ((State.reset.withFetchWord 32 0xFFFFFFFF)) with
     | .next u => (u.thread 0).map (fun t => (t.cause, t.epc, t.eval, t.instret))
     | _ => none) = some (0, 0, 0, 0) := by decide +kernel

end Sys2Proof.Tests
end

