-- ==== Sys2Proof/Tests/Witness.lean ====
section
/-!
SUPPORT. Tests: for every statement with hypotheses, one theorem that shows states and operands that meet them together, clause
by clause where a statement has several, at the boundary values of the ranges.
-/
namespace Sys2Proof.Tests
open Sys2Proof Sys2Proof.Machine

-- One theorem after another: their kernel evaluations would else each take a thread.
set_option Elab.async false

/-- Whether an answer is one. -/
def isOk {E A : Type} : Except E A → Bool
  | .ok _ => true
  | .error _ => false

/-- An answer that is one. -/
def got {E A : Type} : (r : Except E A) → isOk r = true → A
  | .ok a, _ => a

theorem got_eq {E A : Type} (r : Except E A) (h : isOk r = true) : r = .ok (got r h) := by
  cases r
  · simp [isOk] at h
  · rfl

/-- Whether a check ends in a trap. -/
def isTrap {A : Type} : Check A → Bool
  | .error (some _) => true
  | _ => false

theorem trap_of {A : Type} {r : Check A} (h : isTrap r = true) : ∃ tr, r = .error (some tr) := by
  unfold isTrap at h
  split at h
  · exact ⟨_, rfl⟩
  · cases h

/-- Whether a check must wait. -/
def isBusy {A : Type} : Check A → Bool
  | .error none => true
  | _ => false

theorem busy_of {A : Type} {r : Check A} (h : isBusy r = true) : r = .error none := by
  unfold isBusy at h
  split at h
  · rfl
  · cases h

theorem ok_of {E A : Type} {r : Except E A} (h : isOk r = true) : ∃ a, r = .ok a := ⟨got r h, got_eq r h⟩

/-- Whether an answer is one that passes a test. -/
def holds {E A : Type} (r : Except E A) (p : A → Bool) : Bool :=
  match r with
  | .ok a => p a
  | .error _ => false

theorem ok_with {E A : Type} {r : Except E A} {p : A → Bool} (h : holds r p = true) : ∃ a, r = .ok a ∧ p a = true := by
  cases r
  · simp [holds] at h
  · exact ⟨_, rfl, h⟩

/-- The tables of a state in canonical form, as a test. -/
def tidy (s : State) : Bool :=
  let up := fun (l : List Nat) => decide (l.Pairwise (fun a b => a < b))
  s.mem.wf && s.sram.wf && s.host.msix.wf && up (s.threads.map (fun p => p.1)) && up (s.tags.map (fun p => p.1))
    && up (s.evals.map (fun p => p.1)) && up (s.launches.map (fun p => p.1)) && up (s.helben.halts.map (fun p => p.1))

theorem tidy_of {s : State} (h : tidy s = true) : Tidy s := by
  simp only [tidy, Bool.and_eq_true, decide_eq_true_eq] at h
  simpa [Tidy, rising, and_assoc] using h

/-- Eight-byte words written to an empty memory. -/
def words (l : List (Nat × Nat)) : Memory := l.foldl (fun m p => m.writeLE p.1 8 p.2) []

/-- A thread with a mode. -/
def sup (th : Thread) : Thread := { th with mode := .supervisor }

/-- A thread with a head. -/
def headed (th : Thread) (op : HeadOp) : Thread :=
  { th with pc := 0x104, head := some { pc := 0x100, next := 0x104, since := 0, retired := 0, op := op } }

/-- Its head. -/
def headOf (op : HeadOp) : Head := { pc := 0x100, next := 0x104, since := 0, retired := 0, op := op }

/-- x1 = 0x1000, x2 = −21, x3 = 5, x4 = 0x20000, x5 = 0x10000. -/
def th0 : Thread := user [0x1000, -21, 5, 0x20000, 0x10000]

/-- The package with one thread. -/
def st (th : Thread) : State := one th []

/-! ### Statements 1 to 6: only `current`, and the clauses of an operand's value -/

theorem wit_AluWritesTheTabledValue : (st th0).current = some th0 := rfl

theorem wit_MultipliesWriteTheTabledHalf : (st th0).current = some th0 := rfl

theorem wit_DividesRoundTowardsZero : (st th0).current = some th0 := rfl

theorem wit_ImmediateFormsWriteTheirValue : (st th0).current = some th0 := rfl

theorem wit_BitInstructionsWriteTheirValue :
    (st th0).current = some th0 ∧ (let lo := (60 : BitVec 6).toNat; let n := (3 : BitVec 6).toNat + 1; lo + n ≤ 64)
    ∧ (let lo := (61 : BitVec 6).toNat; let n := (3 : BitVec 6).toNat + 1; 64 < lo + n) ∧ th0.head = none :=
  ⟨rfl, by decide, by decide, rfl⟩

theorem wit_BranchesAndJumpsGoToTheirTargets :
    (st th0).current = some th0 ∧ (th0.getX 1 + (4 : BitVec 15).signExtend 64).extractLsb' 0 2 = (0 : BitVec 2)
    ∧ (th0.getX 1 + (2 : BitVec 15).signExtend 64).extractLsb' 0 2 ≠ (0 : BitVec 2) :=
  ⟨rfl, by decide, by decide⟩

/-! ### Scalar memory and cells -/

/-- The package with the 32 bytes at 0x1000 owned by the copy engine of cluster 0. -/
def owned (s : State) : State :=
  let r : CopyReq :=
    { tid := 9, home := 0, fifo := 0, lctx := 0, w0 := 0x1000, w1 := 0x1000000000000000, w2 := 32, w3 := 0, mode := .user, csrs := CtxCsrs.reset, privbase := 0 }
  s.putCluster 0 { s.cluster 0 with jobs :=
    [{ req := r, seq := 1, desc := [], banks := [], iter := 0, owned := [{ iter := 0, dram := true, start := 0x1000, len := 32 }] }] }

/-- A bank that is about to change its mode. -/
def changing (s : State) (n : Nat) : State := s.putBank n { Bank.reset with changes := [{ word := 1, tid := 0, seq := 0 }] }

/-- The pointer of a byte of a bank of the own cluster. -/
def inBank (b off : Nat) : Word := BitVec.ofNat 64 (2 ^ 60 + b * 0x20000 + off)

/-- The check of a scalar access of thread 0. -/
def access (s : State) (th : Thread) (kind : AccessKind) (ctl : Bool) (P : Word) (size : Nat) : Check Acc :=
  checkAccess s (cxOf s th) th.place.handle kind .scalar ctl P size size

/-- A load and a store that pass, that trap and, of a bank whose mode is about to change, that must wait. -/
theorem wit_ScalarAccessesIssueAfterTheirChecks :
    (st th0).current = some th0
    ∧ (∃ acc, access (st th0) th0 .load true (th0.getX 1 + (1 : BitVec 11).signExtend 64 * 8) 8 = .ok acc)
    ∧ (∃ tr, access (st th0) th0 .load true (th0.getX 3 + (0 : BitVec 11).signExtend 64 * 8) 8 = .error (some tr))
    ∧ access (changing (st th0) 5) th0 .load true (inBank 5 8) 8 = .error none
    ∧ (∃ acc, access (st th0) th0 .store false (th0.getX 1 + (0x400 : BitVec 11).signExtend 64) 1 = .ok acc)
    ∧ (∃ tr, access (st th0) th0 .store false (th0.getX 3) 4 = .error (some tr))
    ∧ access (changing (st th0) 5) th0 .store false (inBank 5 0x1FFFF) 1 = .error none :=
  ⟨rfl, ok_of (by decide +kernel), trap_of (by decide +kernel), busy_of (by decide +kernel), ok_of (by decide +kernel),
    trap_of (by decide +kernel), busy_of (by decide +kernel)⟩

/-- A page table: page 4 is readable only, 5 has D and L, 6 K of die 0 with one reference, 7 K of die 1, 8 K of die 0 with two, 9 a reserved bit
and 10 everything; page 11 is not mapped, and the table of the second 512 MiB is marked. -/
def mapped (th : Thread) : State :=
  let s := one th (words [(0x100000, 0x110001), (0x110000, 0x120001), (0x110008, 0x130001), (0x120020, 0x400D3), (0x120028, 0x503DF),
    (0x120030, 0x00010010000604DF), (0x120038, 0x01010010000704DF), (0x120040, 0x00020010000804DF), (0x120048, 0x908DF), (0x120050, 0xA00DF)])
  { s.putCore 0 { core0 with tlb := [], served := [{ lctx := 0, idx := 0, deficit := 0, starved := 0, csrs :=
      { CtxCsrs.reset with tvec := 0x4000, ptbase := 0x100000 } }] } with bad := [(0x130000 / 32, BitVec.allOnes 32)] }

/-- The same with each of these entries in the TLB of the core. -/
def mapped' (th : Thread) : State :=
  (mapped th).putCore 0 { (mapped th).core 0 with tlb := [page 4 4 0xD3, page 5 5 0x3DF, page 6 6 0x00010010000004DF, page 7 7 0x01010010000004DF,
    page 8 8 0x00020010000004DF, page 10 10 0xDF] }

/-- How the walk of thread 0 ends for an address. -/
def walkTo (s : State) (va : Nat) : Walked := walk s none (cxOf s th0).asid (cxOf s th0).ptbase va

/-- A leaf that passes a test. -/
def isLeaf (w : Walked) (p : TlbEntry → Bool) : Bool :=
  match w with
  | .leaf e => p e
  | _ => false

/-- R152 for thread 0, a user thread. -/
def permitsIn (store : Bool) (e : TlbEntry) : Bool := e.pte.getLsbD (if store then 2 else 1) && e.pte.getLsbD 4

/-- More than one of D, L and K; a K page that die 0 may not store to, for its owner and for its count. -/
def manyIn (e : TlbEntry) : Bool :=
  (e.pte.getLsbD 8 && e.pte.getLsbD 9) || (e.pte.getLsbD 8 && e.pte.getLsbD 10) || (e.pte.getLsbD 9 && e.pte.getLsbD 10)
def foreignIn (e : TlbEntry) : Bool := e.pte.getLsbD 10 && (e.pte.extractLsb' 56 2).toNat != 0
def sharedIn (e : TlbEntry) : Bool := e.pte.getLsbD 10 && decide (1 < (e.pte.extractLsb' 48 8).toNat)

/-- Watch addresses for partition 0. -/
def watching (s : State) : State := { s with helben := { s.helben with watch := [(0, [0xA0007, inBank 5 0x1FFF8])] } }

/-- A SCRATCH bank. -/
def scratch (s : State) (n : Nat) : State := s.putBank n { Bank.reset with mode := .scratch }

/-- The pointers of the spaces and layouts that are refused; a bank's byte that is misaligned, of a bank in another mode, of a SCRATCH bank with and
without a watch address; a misaligned GLOBAL pointer and a PRIVATE one past the address space; without a TLB entry, the walks that end in
each way; the TLB entries of each kind. -/
theorem wit_ScalarAccessesIssueAfterTheirChecks_decided :
    (st th0).current = some th0 ∧ th0.mode = .user
    ∧ ((0xF000000000000000 : Word).extractLsb' 60 4 = 15 ∧ (5 ≤ ((0x5000000000000000 : Word).extractLsb' 60 4).toNat)
      ∧ (0xE000000000000000 : Word).extractLsb' 60 4 ≠ 15)
    ∧ ((0x0400000000000000 : Word).extractLsb' 60 4 = 0 ∧ (0x0400000000000000 : Word).extractLsb' 58 2 ≠ 0
      ∧ (0x0010000000000000 : Word).extractLsb' 52 4 ≠ 0)
    ∧ ((0x1E00000000000000 : Word).extractLsb' 57 3 = 7 ∧ (0x1000000000400000 : Word).extractLsb' 22 35 ≠ 0
      ∧ (0x3000000100000000 : Word).extractLsb' 32 28 ≠ 0)
    ∧ (let P := inBank 5 0x1FFF8; P.extractLsb' 60 4 = 1 ∧ P.extractLsb' 57 3 ≠ 7 ∧ P.extractLsb' 22 35 = 0
      ∧ (P + 4).toNat % 8 ≠ 0 ∧ P.toNat % 8 = 0 ∧ (P.extractLsb' 0 17).toNat + 8 ≤ 2 ^ 17
      ∧ ((st th0).bank 5).changes = [] ∧ ((st th0).bank 5).mode ≠ .scratch
      ∧ ((scratch (st th0) 5).bank 5).changes = [] ∧ ((scratch (st th0) 5).bank 5).mode = .scratch
      ∧ watched (scratch (st th0) 5) 0 P 8 = false ∧ watched (watching (scratch (st th0) 5)) 0 P 8 = true)
    ∧ (let P : Word := 0x3000000000010000
      P.extractLsb' 60 4 = 3 ∧ P.extractLsb' 32 28 = 0 ∧ P.toNat % 8 = 0
      ∧ 2 ^ 52 ≤ ((0x000FFFFFFFFF0000 : Word).extractLsb' 0 52).toNat + (P.extractLsb' 0 32).toNat + 8 - 1)
    ∧ (0x1001 : Word).toNat % 2 ≠ 0 ∧ (cxOf (mapped th0) th0).die = 0 ∧ (cxOf (mapped th0) th0).mode = .user
    ∧ ([0x40000, 0x50000, 0x60000, 0x70000, 0x80000, 0xA0000].all (fun va => (tlbFind (mapped th0) 0 0 va).isNone)
      && walkTo (mapped th0) 0xB0000 == .fault && walkTo (mapped th0) 0x90000 == .corrupt && walkTo (mapped th0) 0x20000000 == .corrupt
      && isLeaf (walkTo (mapped th0) 0x40000) (fun e => permitsIn false e && !permitsIn true e)
      && isLeaf (walkTo (mapped th0) 0x50000) (fun e => permitsIn true e && permitsIn false e && manyIn e)
      && isLeaf (walkTo (mapped th0) 0x70000) (fun e => permitsIn true e && !manyIn e && foreignIn e)
      && isLeaf (walkTo (mapped th0) 0x80000) (fun e => permitsIn true e && !manyIn e && !foreignIn e && sharedIn e)
      && isLeaf (walkTo (mapped th0) 0x60000) (fun e => permitsIn true e && !manyIn e && !foreignIn e && !sharedIn e)
      && isLeaf (walkTo (mapped th0) 0xA0000) (fun e => permitsIn true e && !manyIn e && !foreignIn e && !sharedIn e)
      && watched (watching (mapped th0)) 0 0xA0000 8 && !watched (watching (mapped th0)) 0 0xA0008 8) = true
    ∧ ((tlbFind (mapped' th0) 0 0 0x40000).any (fun e => !permitsIn true e && permitsIn false e && !manyIn e)
      && (tlbFind (mapped' th0) 0 0 0x50000).any (fun e => permitsIn true e && e.pte.getLsbD 7 && manyIn e)
      && (tlbFind (mapped' th0) 0 0 0x70000).any (fun e => permitsIn false e && !manyIn e && foreignIn e)
      && (tlbFind (mapped' th0) 0 0 0x80000).any (fun e => permitsIn false e && !manyIn e && !foreignIn e && sharedIn e)
      && (tlbFind (mapped' th0) 0 0 0xA0000).any (fun e => permitsIn true e && e.pte.getLsbD 7 && !manyIn e && !e.pte.getLsbD 10)) = true := by
  refine ⟨rfl, rfl, ?_, ?_, ?_, ?_, ?_, ?_, ?_, rfl, ?_, ?_⟩ <;> decide +kernel

/-- DRAM with two words, a bank with one, and a SUSPENDED, an EVALUATING and a FAILED cell on page 2. -/
def stm (th : Thread) : State :=
  { one th (words [(0x1000, 0x8877665544332211), (0x20008, 0x1234567890ABCDEF)]) with
    sram := words [(0x1000, 0xFFEEDDCCBBAA9988)], tags := [(0x20000 / 8, 1), (0x20008 / 8, 2), (0x20010 / 8, 3)] }

/-- The same with the line of the L page that holds them marked. -/
def marked (s : State) : State := { s with bad := [(0x20000 / 32, BitVec.allOnes 32)] }

/-- A load of DRAM and of a bank, a store of 8 bytes to each, on an L page too, one to a word whose tag cannot be read and one to an
EVALUATING word, and a store to each CONTROL register. -/
theorem wit_ScalarAccessesMoveExactlyTheirBytes :
    (let op := HeadOp.load 5 4 true 0x1000 (.dram 0x1000) true;
      (stm (headed th0 op)).thread 0 = some (headed th0 op) ∧ (headed th0 op).head = some (headOf op)
      ∧ (stm (headed th0 op)).tag 0x1000 = 0 ∧ lineHeld (stm (headed th0 op)) (.dram 0x1000) 4 = false
      ∧ locBad (stm (headed th0 op)) (.dram 0x1000) 4 = false)
    ∧ (let op := HeadOp.load 5 8 false (inBank 0 0x1000) (.bank 0x1000) false;
      (headed th0 op).head = some (headOf op) ∧ lineHeld (stm (headed th0 op)) (.bank 0x1000) 8 = false
      ∧ locBad (stm (headed th0 op)) (.bank 0x1000) 8 = false)
    ∧ (let op := HeadOp.store 8 0x20010 1 (.dram 0x20010) true;
      Tidy (stm (headed th0 op)) ∧ (headed th0 op).head = some (headOf op) ∧ (stm (headed th0 op)).tag 0x20010 ≠ 2
      ∧ tagBad (stm (headed th0 op)) 0x20010 = false ∧ lineHeld (stm (headed th0 op)) (.dram 0x20010) 8 = false)
    ∧ (let op := HeadOp.store 4 0x2000C 1 (.dram 0x2000C) true;
      (headed th0 op).head = some (headOf op) ∧ lineHeld (marked (stm (headed th0 op))) (.dram 0x2000C) 4 = false
      ∧ tagBad (marked (stm (headed th0 op))) 0x2000C = true
      ∧ tagBad (stm (headed th0 op)) 0x2000C = false ∧ (stm (headed th0 op)).tag 0x2000C = 2 ∧ th0.evalOf ≠ some (0x2000C / 8 * 8))
    ∧ (let op := HeadOp.store 8 (inBank 0 0x1000) 1 (.bank 0x1000) false;
      Tidy (stm (headed th0 op)) ∧ (headed th0 op).head = some (headOf op) ∧ lineHeld (stm (headed th0 op)) (.bank 0x1000) 8 = false)
    ∧ (∀ off ∈ [0x00, 0x08, 0x10, 0x18], let op := HeadOp.store 8 0xF000000000000000 1 (.control 0 false off) false;
      (headed th0 op).head = some (headOf op)
      ∧ ∀ p ∈ (stm (headed th0 op)).threads, ∀ hd i, p.2.place = .spilled hd i → coreOfHandle hd ≠ 0) := by
  refine ⟨⟨rfl, rfl, ?_⟩, ⟨rfl, ?_⟩, ⟨tidy_of ?_, rfl, ?_⟩, ⟨rfl, ?_⟩, ⟨tidy_of ?_, rfl, ?_⟩, fun off _ => ⟨rfl, ?_⟩⟩
  iterate 7 decide +kernel
  intro p hp
  simp [stm, one] at hp
  subst hp
  intro hd i h
  cases h

/-- A record of core 0 in its spill area. -/
def withSpilled (s : State) : State := { s with threads := s.threads ++ [(7, { th0 with place := .spilled 0 0 })], nextTid := 8 }

/-- A word that the thread itself evaluates, words written through the REMOTE space, and a record in the spill area. -/
theorem wit_ScalarAccessesMoveExactlyTheirBytes_more :
    (let op := HeadOp.store 4 0x2000C 1 (.dram 0x2000C) true
      let th := { headed th0 op with evalOf := some 0x20008 }
      Tidy (stm th) ∧ (stm th).thread 0 = some th ∧ th.head = some (headOf op) ∧ lineHeld (stm th) (.dram 0x2000C) 4 = false
      ∧ tagBad (stm th) 0x2000C = false ∧ (0x2000C : Word).extractLsb' 60 4 ≠ 4 ∧ (stm th).tag 0x2000C = 2
      ∧ th.evalOf = some (0x2000C / 8 * 8) ∧ 0x2000C % 8 + 4 ≤ 8)
    ∧ (let P : Word := 0x4000000000020000
      let op := HeadOp.store 8 P 1 (.dram 0x20000) true
      Tidy (stm (headed th0 op)) ∧ (headed th0 op).head = some (headOf op) ∧ P.extractLsb' 60 4 = 4
      ∧ lineHeld (stm (headed th0 op)) (.dram 0x20000) 8 = false ∧ tagBad (stm (headed th0 op)) 0x20000 = false ∧ (stm (headed th0 op)).tag 0x20000 ≠ 0
      ∧ (stm (headed th0 op)).tag 0x20018 = 0)
    ∧ (let n := fun (s : State) => s.threads.countP (fun p => match p.2.place with
        | .spilled hd _ => coreOfHandle hd == 0
        | _ => false)
      n (stm th0) = 0 ∧ n (withSpilled (stm th0)) = 1) := by
  refine ⟨⟨tidy_of ?_, rfl, rfl, ?_⟩, ⟨tidy_of ?_, rfl, ?_⟩, ?_⟩ <;> decide +kernel

/-- An access that walked and finds M clear, for a store, and an access without translation. -/
theorem wit_TranslationTouchesOnlyItsLeaf :
    let acc : Acc := { ptr := 0x1000, loc := .dram 0x1000, hit := some { entry := page 0 0 0x1F, walked := true }, win := 0 }
    Tidy (stm th0) ∧ acc.hit = some { entry := page 0 0 0x1F, walked := true } ∧ ({ acc with hit := none } : Acc).hit = none :=
  ⟨tidy_of (by decide +kernel), rfl, rfl⟩

/-- Page-table entries at the start of tables of each level. -/
def entries : State :=
  { one th0 (words [(0x10000, 0), (0x20000, 0x30001), (0x30000, 0x30011), (0x40000, 0x00100001), (0x40008, 0x20000001F), (0x50000, 0x5000F),
    (0x60000, 0x2000001F), (0x60008, 0x00010010000604DF), (0x70000, 0x1F)]) with bad := [(0x80000 / 32, BitVec.allOnes 32)] }

/-- An entry of no memory, a marked one, one that a copy engine owns; one without V, pointers with and without their reserved bits zero, and at
level 3; leaves at level 1, at level 2 with an address in memory and misaligned, and at level 3, of a K page and with a reserved address. -/
theorem wit_TranslationTouchesOnlyItsLeaf_levels :
    let s := entries
    let entry := fun (a : Nat) => (BitVec.ofNat 64 (s.mem.readLE a 8) : Word)
    let pointer := fun a => (entry a).extractLsb' 1 3 = 0
    let good := fun (a : Nat) (large : Bool) =>
      let e := entry a
      let base := (e.extractLsb' 16 32).toNat * 65536
      e.extractLsb' 11 5 = 0 ∧ e.extractLsb' 58 2 = 0 ∧ (e.getLsbD 10 = false → e.extractLsb' 48 10 = 0)
        ∧ (large = true → e.extractLsb' 16 13 = 0) ∧ paReserved base = false ∧ (e.getLsbD 10 = true → large = false ∧ 2 ≤ dieOfPa base)
    0x3000000000 ≤ 0x3000000000 + 8 ∧ s.isBad 0x80000 8 = true ∧ ownedAt (owned (stm th0)) true 0x1000 8 = true
    ∧ ([0x10000, 0x20000, 0x30000, 0x40000, 0x40008, 0x50000, 0x60000, 0x60008, 0x70000].all (fun a => !s.isBad a 8 && !ownedAt s true a 8)) = true
    ∧ (entry 0x10000).getLsbD 0 = false
    ∧ ((entry 0x20000).getLsbD 0 = true ∧ pointer 0x20000 ∧ (entry 0x20000).extractLsb' 4 12 = 0 ∧ (entry 0x20000).extractLsb' 48 12 = 0)
    ∧ ((entry 0x30000).getLsbD 0 = true ∧ pointer 0x30000 ∧ (entry 0x30000).extractLsb' 4 12 ≠ 0)
    ∧ ((entry 0x60000).getLsbD 0 = true ∧ ¬ pointer 0x60000 ∧ good 0x60000 true ∧ ¬ pointer 0x50000 ∧ ¬ good 0x50000 true)
    ∧ (good 0x50000 false ∧ good 0x60008 false ∧ ¬ good 0x60008 true ∧ good 0x70000 false) := by
  refine ⟨?_, ?_, ?_, ?_, ?_, ?_, ?_, ?_, ?_⟩ <;> decide +kernel

/-- A GLOBAL and a PRIVATE pointer that pass, a GLOBAL one in an owned line, a CLUSTER pointer, and a CONTROL one for a supervisor. -/
theorem wit_FencesAndCacheOperationsKeepData :
    (stm th0).current = some th0
    ∧ (∃ acc, access (stm th0) th0 .load false (th0.getX 1) 1 = .ok acc ∧ lineHeld (stm th0) acc.loc 1 = false)
    ∧ (∃ acc, access (stm th0) th0 .load false 0x3000000000001000 1 = .ok acc ∧ lineHeld (stm th0) acc.loc 1 = false)
    ∧ (∃ acc, access (owned (stm th0)) th0 .load false (th0.getX 1) 1 = .ok acc ∧ lineHeld (owned (stm th0)) acc.loc 1 = true)
    ∧ (let P := inBank 0 0; P.extractLsb' 60 4 ≠ (0 : BitVec 4) ∧ P.extractLsb' 60 4 ≠ (3 : BitVec 4) ∧ P.extractLsb' 60 4 ≠ (15 : BitVec 4))
    ∧ (sup th0).mode = .supervisor := by
  refine ⟨rfl, ⟨_, got_eq _ ?_, ?_⟩, ⟨_, got_eq _ ?_, ?_⟩, ⟨_, got_eq _ ?_, ?_⟩, ?_, rfl⟩ <;> decide +kernel

/-- The check of a cell of thread 0. -/
def cell (s : State) (th : Thread) (kind : AccessKind) (store : Bool) (P : Word) : Check (Nat × Hit) := cellAccess s th kind store P

/-- A thread that waits in the context cache for bytes 4 to 7 of the cell at 0x20008. -/
def waiter : Thread := { th0 with place := .cached 0, wait := some (.cell 0x20008 0x20008 (.load 5 4 4 true)) }

/-- Thread 0 evaluates the cell, and thread 1 waits for it. -/
def evaluating : State :=
  { stm { th0 with evalOf := some 0x20008 } with
    threads := [(0, { th0 with evalOf := some 0x20008 }), (1, waiter)], nextTid := 2,
    evals := [(0x20008, { serial := 1, waitsOn := none, waiters := [1] })] }

/-- The FAILED cell, which holds no evaluation; the EVALUATING one, for a user thread that does not evaluate it, and for its evaluator, with
one waiter. -/
theorem wit_CellsAreReadSuspendedAndEnded :
    Tidy (stm th0) ∧ (stm th0).current = some th0 ∧ th0.mode = .user
    ∧ (∃ pa h, cell (stm th0) th0 .load false 0x20000 = .ok (pa, h))
    ∧ (∃ pa h, cell (stm th0) th0 .store true 0x20010 = .ok (pa, h) ∧ (stm th0).tag pa ≠ 2 ∧ pa % 8 = 0
      ∧ (stm th0).evals.find pa = none ∧ th0.evalOf ≠ some pa)
    ∧ (∃ pa h, cell (stm th0) th0 .store true 0x20008 = .ok (pa, h) ∧ (stm th0).tag pa = 2 ∧ pa % 8 = 0 ∧ th0.evalOf ≠ some pa)
    ∧ (let th := { th0 with evalOf := some 0x20008 }
      Tidy evaluating ∧ evaluating.current = some th
      ∧ (∃ r, cell evaluating th .store true (th.getX 4 + 8) = .ok r ∧ (r.1 == 0x20008) = true)
      ∧ evaluating.evals.find 0x20008 = some { serial := 1, waitsOn := none, waiters := [1] } ∧ evaluating.tag 0x20008 = 2
      ∧ evaluating.thread 1 = some waiter ∧ waiter.place = .cached 0 ∧ waiter.evalOf ≠ some 0x20008 ∧ evaluating.cur ∉ [1]) := by
  refine ⟨tidy_of ?_, rfl, rfl, ⟨_, _, got_eq _ ?_⟩, ⟨_, _, got_eq _ ?_, ?_⟩, ⟨_, _, got_eq _ ?_, ?_⟩, tidy_of ?_, rfl, ok_with ?_, rfl, ?_, rfl,
    rfl, ?_⟩ <;> decide +kernel

/-! ### Control registers, traps and the privileged group -/

/-- A launch of widths (4, 4) and extents (3, 5). -/
def hdr0 : Header :=
  { entry := 0x100, arg := 7, widths := [4, 4], det := false, strict := false, replay := false, syscomp := false, extents := [3, 5], events := 0,
    target := 0, dep0 := 0, dep1 := 0, weight := 1, diemask := 1, banks := 0, staging := 0, stagesize := 512 }

def lau : Launch :=
  { hdr := hdr0, x11 := 0, csrs := CtxCsrs.reset, issuer := 0, core := 0, total := 15, leaves := [(2, (3, 0))], closed := [7], lastCore := 0,
    done := false, budget := 0, area := 0, staged := [], events := [] }

/-- A thread in a slot, in each mode, and one of a launch. -/
theorem wit_CsrReadsGiveTheTabledValue :
    let s := { st { th0 with lctx := 1 } with launches := [(1, lau)] }
    s.current = some { th0 with lctx := 1 } ∧ th0.place = .slot 0 ∧ s.launches.find (1 : BitVec 16).toNat = some lau
    ∧ (st (sup th0)).current = some (sup th0) ∧ (sup th0).place = .slot 0 ∧ (sup th0).mode = .supervisor :=
  ⟨rfl, rfl, rfl, rfl, rfl, rfl⟩

/-- Values that MULT and LIVE admit at the edge of their ranges, and a supervisor whose context its core serves. -/
theorem wit_CsrWritesKeepTheirWidth :
    (st th0).current = some th0 ∧ (st (sup th0)).current = some (sup th0) ∧ (sup th0).mode = .supervisor
    ∧ (let v : Word := 0xFFFFFFFF; v.extractLsb' 0 32 ≠ (0 : BitVec 32) ∧ v.extractLsb' 32 32 = (0 : BitVec 32))
    ∧ (let v : Word := 0x1FE; v.extractLsb' 32 32 = (0 : BitVec 32) ∧ v.getLsbD 0 = false
      ∧ (List.range 32).countP (fun i => v.getLsbD i) ≤ 8)
    ∧ ∃ sv, ((st (sup th0)).core (sup th0).core).served.find? (fun c => c.lctx == (sup th0).lctx.toNat) = some sv :=
  ⟨rfl, rfl, rfl, by decide +kernel, by decide +kernel, _, rfl⟩

/-- One number of each class at its edge, in the mode that the clause names, and the refused values of MULT and LIVE. -/
theorem wit_CsrChecksRefuseInOrder :
    (st th0).current = some th0 ∧ th0.mode = .user ∧ (st (sup th0)).current = some (sup th0) ∧ (sup th0).mode = .supervisor
    ∧ (0x052 : BitVec 12).toNat ∉ [0x003, 0x020, 0x021, 0x022, 0x023, 0x024, 0x025, 0x026, 0x027, 0x028, 0x029, 0x02A, 0x02B, 0x02C, 0x02D,
      0x030, 0x031] ++ [0x010, 0x011, 0x032] ++ [0x000, 0x001, 0x002, 0x040, 0x041, 0x042, 0x043, 0x044, 0x050, 0x051]
      ++ [0x100, 0x101, 0x102, 0x103, 0x104, 0x105, 0x106, 0x110, 0x111]
    ∧ (let X : Word := 0x100000000; X.extractLsb' 0 32 = (0 : BitVec 32)) ∧ (let X : Word := 0x100000001; X.extractLsb' 32 32 ≠ (0 : BitVec 32))
    ∧ (let X : Word := 0x3FE; 8 < (List.range 32).countP (fun i => X.getLsbD i)) ∧ (let X : Word := 1; X.getLsbD 0 = true) :=
  ⟨rfl, rfl, rfl, rfl, by decide +kernel, by decide +kernel, by decide +kernel, by decide +kernel, by decide +kernel⟩

/-- A trap that is not delegated, one that is (28), one that DELEG cannot delegate (DEBUG_STEP), the fetch trap of the first handler
instruction, and the two causes that no handler takes. -/
theorem wit_TrapEntrySavesAndGoesToTvec :
    (st th0).thread 0 = some th0 ∧ (th0.entered = .supervisor → Cause.loadMisaligned.ofFetch = false) ∧ th0.utvec = 0
    ∧ delegating.thread 0 = some { user [] with pc := 0x00200100, utvec := 0x00204000 }
    ∧ (let th := { user [] with pc := 0x00200100, utvec := 0x00204000 };
      th.mode = .user ∧ th.utvec ≠ 0 ∧ th.entered = .no ∧ (delegating.csrsOf th).deleg.getLsbD Cause.kvSharedWrite.code = true
      ∧ Cause.kvSharedWrite.code ∉ [2, 8, 39, 53, 54, 55, 56, 57, 58, 59, 60, 61, 62, 63])
    ∧ (let c := delegating.core 0
      let s := delegating.putCore 0 { c with served := c.served.map (fun x => { x with csrs := { x.csrs with deleg := BitVec.allOnes 64 } }) }
      let th := { user [] with pc := 0x00200100, utvec := 0x00204000 };
      s.thread 0 = some th ∧ (s.csrsOf th).deleg.getLsbD Cause.debugStep.code = true
      ∧ Cause.debugStep.code ∈ [2, 8, 39, 53, 54, 55, 56, 57, 58, 59, 60, 61, 62, 63] ∧ Cause.debugStep ≠ .machineCheck
      ∧ Cause.debugStep ≠ .contextSwapError)
    ∧ (st { th0 with entered := .supervisor }).thread 0 = some { th0 with entered := .supervisor }
    ∧ Cause.fetchFault ∈ [Cause.fetchFault, .misalignedFetch, .instructionUncorrectable] := by
  refine ⟨rfl, fun _ => rfl, rfl, rfl, ⟨rfl, by decide, rfl, by decide +kernel, by decide⟩, ⟨rfl, by decide +kernel, by decide, by decide, by decide⟩, rfl, by decide⟩

/-- A thread that UTVEC has just received, one that stands at the address it holds; the two causes that end a thread. -/
theorem wit_TrapEntrySavesAndGoesToTvec_more :
    (let th := { user [] with pc := 0x00204000, utvec := 0x00204000, entered := .user }
      let s := { delegating with threads := [(0, th)] }
      s.thread 0 = some th ∧ Cause.fetchFault ≠ .machineCheck ∧ Cause.fetchFault ≠ .contextSwapError ∧ (th.entered ≠ .supervisor)
      ∧ (th.entered = .user ∨ th.pc = th.utvec) ∧ Cause.fetchFault ∈ [.fetchFault, .misalignedFetch, .instructionUncorrectable])
    ∧ (let th := { user [] with pc := 0x00204000, utvec := 0x00204000 }; th.entered = .no ∧ th.pc = th.utvec)
    ∧ (let th := { user [] with pc := 0x00204004, utvec := 0x00204000 }; th.entered = .no ∧ th.pc ≠ th.utvec) := by
  refine ⟨⟨rfl, ?_, ?_, ?_, .inl rfl, ?_⟩, ⟨rfl, rfl⟩, rfl, ?_⟩ <;> decide

/-- Both modes, with a saved PC that is a multiple of 4 and one that is not. -/
theorem wit_SystemCallsTrapAndTretReturns :
    (st th0).current = some th0 ∧ th0.utvec = 0 ∧ th0.redo = none ∧ (st (sup th0)).current = some (sup th0)
    ∧ (let th := { th0 with uepc := 0x204 }; (st th).current = some th ∧ th.uepc.extractLsb' 0 2 = (0 : BitVec 2))
    ∧ (let th := { th0 with uepc := 0x206 }; (st th).current = some th ∧ th.uepc.extractLsb' 0 2 ≠ (0 : BitVec 2))
    ∧ (let th := { sup th0 with epc := 0x204, eskip := 2 }; (st th).current = some th ∧ th.redo = none ∧ th.epc.extractLsb' 0 2 = (0 : BitVec 2))
    ∧ (let th := { sup th0 with epc := 0x201 }; (st th).current = some th ∧ th.epc.extractLsb' 0 2 ≠ (0 : BitVec 2)) := by
  refine ⟨rfl, rfl, rfl, rfl, ⟨rfl, ?_⟩, ⟨rfl, ?_⟩, ⟨rfl, rfl, ?_⟩, ⟨rfl, ?_⟩⟩ <;> decide

/-- A TRET that another one re-executes, in each mode. -/
theorem wit_SystemCallsTrapAndTretReturns_again :
    (let th := { sup th0 with epc := 0x204, redo := some 0x300 };
      (st th).current = some th ∧ th.redo = some 0x300 ∧ (if th.mode = .supervisor then th.epc else th.uepc).extractLsb' 0 2 = (0 : BitVec 2))
    ∧ (let th := { th0 with uepc := 0x204, redo := some 0x300 };
      (st th).current = some th ∧ (if th.mode = .supervisor then th.epc else th.uepc).extractLsb' 0 2 = (0 : BitVec 2)) := by
  refine ⟨⟨rfl, rfl, ?_⟩, rfl, ?_⟩ <;> decide

/-- A user thread; a supervisor with nothing outstanding and an empty mailbox, with a message, and with the doorbell rung. -/
theorem wit_PrivilegedInstructionsActOrTrap :
    (st th0).current = some th0 ∧ th0.mode = .user
    ∧ (let th := sup th0
      (st th).current = some th ∧ th.mode = .supervisor ∧ selectedOutstanding (st th) none none = false ∧ mailCount (st th) th.place.handle = 0
      ∧ ((st th).cluster 0).doorbell = false
      ∧ mailCount ((st th).putCore 0 { core0 with mailbox := [{ slot := 0, m0 := 0, m1 := 0, copyOf := none }] }) th.place.handle ≠ 0
      ∧ (((st th).putCluster 0 { Cluster.reset with doorbell := true }).cluster 0).doorbell = true) := by
  refine ⟨rfl, rfl, rfl, rfl, ?_⟩
  decide +kernel

/-- A second thread, in slot 5. -/
def fifth : Thread := { th0 with place := .slot 5, pc := 0x200 }

/-- It stands at a boundary; slot 4 is EMPTY. -/
def two (th : Thread) : State := { st th with threads := [(0, th), (1, fifth)], nextTid := 2 }

/-- A supervisor whose x2 to x5 are 5, 0x1000, 0x1001 and 4. -/
def saver : Thread := sup (user [0, 5, 0x1000, 0x1001, 4])

/-- A record of zeros, which passes every check of R100, may stand anywhere. -/
def kept : State := one saver []

/-- A record at 0x1000 with a reserved bit of STATE set, and one whose thread holds a tile of core 1. -/
def spoiled : State := one saver (words [(0x1000 + 4584, 2)])
def elsewhere : State := one saver (words [(0x1000 + 4584, 0x100), (0x1000 + 4832, 0x10000000010)])

/-- Core 0 serves four other contexts, each with a thread. -/
def crowded : State :=
  { kept with
    threads := (0, saver) :: (List.range 4).map (fun k => (k + 1, { th0 with place := .slot (k + 5), lctx := BitVec.ofNat 16 (k + 1) })),
    cores := [(0, { core0 with served := (List.range 4).map (fun k =>
      { lctx := k + 1, idx := k, csrs := CtxCsrs.reset, deficit := 0, starved := 0 }) })] }

/-- What CTXIN reads at x3. -/
def reads (s : State) (p : List Word → Bool) : Bool :=
  holds (loadWords s (cxOf s saver) saver.place.handle (saver.getX 3) 608) (fun r => p r.1)

theorem wit_ContextsAreSavedAndRestored :
    (two saver).current = some saver ∧ saver.mode = .supervisor
    ∧ (saver.getX 0).toNat % 16 = slotOfHandle saver.place.handle ∧ (saver.getX 2).toNat % 16 ≠ slotOfHandle saver.place.handle
    ∧ (two saver).inSlot (handleOf saver.core 4) = none
    ∧ (two saver).inSlot (handleOf saver.core 5) = some (1, fifth) ∧ fifth.canLeave = true
    ∧ (inBank 0 0).extractLsb' 60 4 ≠ (0 : BitVec 4)
    ∧ ((saver.getX 4).extractLsb' 60 4 = (0 : BitVec 4) ∧ (saver.getX 4).extractLsb' 0 8 ≠ (0 : BitVec 8))
    ∧ ((saver.getX 3).extractLsb' 60 4 = (0 : BitVec 4) ∧ (saver.getX 3).extractLsb' 0 8 = (0 : BitVec 8))
    ∧ isOk (storeWordsAt (two saver) (cxOf (two saver) saver) saver.place.handle (saver.getX 3)
        (recordWords (two saver) 1 { fifth with wait := none, window := none, preempt := false } 5)) = true
    ∧ { fifth with redo := some 0x208 }.canLeave = false
    ∧ (1, fifth) ∈ (two saver).threads ∧ fifth.place = .slot (handleOf saver.core 5) ∧ fifth.wake = false ∧ fifth.wait = none
    ∧ (∃ tr, loadWords (two saver) (cxOf (two saver) saver) saver.place.handle (saver.getX 4) 608 = .error (some tr))
    ∧ kept.current = some saver
    ∧ (∀ p ∈ kept.threads, p.2.place ≠ .slot (handleOf saver.core 4) ∧ p.2.place ≠ .arriving (handleOf saver.core 4))
    ∧ reads kept (fun l => recordValid l && recordCoreOk l saver.core
      && (savedThread kept l ((recordAt l 4832).extractLsb' 0 17).toNat).isNone
      && servesOrCan kept saver.core ((recordAt l 4696).extractLsb' 0 16).toNat) = true
    ∧ reads spoiled (fun l => !recordValid l) = true ∧ reads elsewhere (fun l => recordValid l && !recordCoreOk l saver.core) = true
    ∧ reads crowded (fun l => recordValid l && recordCoreOk l saver.core
      && (savedThread crowded l ((recordAt l 4832).extractLsb' 0 17).toNat).isNone
      && !servesOrCan crowded saver.core ((recordAt l 4696).extractLsb' 0 16).toNat) = true := by
  refine ⟨rfl, rfl, ?_, ?_, ?_, ?_, rfl, ?_, ?_, ?_, ?_, rfl, List.mem_cons_of_mem _ (List.mem_singleton.mpr rfl), rfl, rfl, rfl, trap_of ?_,
    rfl, ?_⟩ <;> decide +kernel

/-- A record of zeros on page 2, which has L: whole, with its first word FAILED and with it EVALUATING; and one that CTXOUT wrote for a thread
that keeps the handle of slot 9. -/
def lrecord (tag : Nat) : State :=
  { one (saver.setX 3 0x20000) [] with tags := if tag = 0 then [] else [(0x20000 / 8, tag)],
                                       evals := [(0x20000, { serial := 1, waitsOn := none, waiters := [] })] }

def keeper : State :=
  let s := one saver (words [(0x1000 + 4832, 9)])
  { s with threads := s.threads ++ [(1, { Thread.reset (.out 9 0x1000) 0 0 with copies := 1 })], nextTid := 2 }

theorem wit_ContextsAreSavedAndRestored_more :
    loadTags kept saver (saver.getX 3) 608 = .ok none
    ∧ isTrap (loadTags (two saver) saver (saver.getX 4) 608) = true
    ∧ isTrap (loadTags (lrecord 3) (saver.setX 3 0x20000) 0x20000 608) = true
    ∧ holds (loadTags (lrecord 2) (saver.setX 3 0x20000) 0x20000 608) (fun r => r.isSome) = true
    ∧ (loadTags keeper saver (saver.getX 3) 608 = .ok none
      ∧ reads keeper (fun l => recordValid l && recordCoreOk l saver.core && (savedThread keeper l ((recordAt l 4832).extractLsb' 0 17).toNat).any (fun p =>
        p.1 == 1 && keepsHandle keeper p.1 p.2) && ((recordAt l 4832).extractLsb' 0 17).toNat != handleOf saver.core 4) = true) := by
  refine ⟨?_, ?_, ?_, ?_, ?_, ?_⟩ <;> decide +kernel

/-! ### The vector engine -/

/-- v1 holds 1.0 in element 0 and the largest number in element 1, v2 the largest number in both; m1 enables elements 0, 1 and 4. -/
def thv : Thread := ((th0.setV 1 0x7F7FFFFF3F800000).setV 2 0x7F7FFFFF7F7FFFFF).setM 1 0x13

/-- The three types; FADD of the largest number raises OF, which FTRAP enables, with no head outstanding. -/
theorem wit_FloatVectorsComputeTheirRow :
    (st thv).current = some thv ∧ FloatType 0 fp32 32 ∧ FloatType 1 bf16 16 ∧ FloatType 2 fp16 16 ∧ thv.head = none
    ∧ (let r := fp32.add rne (element (thv.getV 1) 32 1).toNat (element (thv.getV 2) 32 1).toNat
      r.2 &&& 0 = 0 ∧ r.2 &&& 4 ≠ 0) :=
  ⟨rfl, .inl ⟨rfl, rfl, rfl⟩, .inr (.inl ⟨rfl, rfl, rfl⟩), .inr (.inr ⟨rfl, rfl, rfl⟩), rfl, by decide +kernel⟩

theorem wit_IntegerVectorsComputeTheirRow :
    (st thv).current = some thv ∧ IntType 3 32 ∧ IntType 4 16 ∧ IntType 5 8 :=
  ⟨rfl, .inl ⟨rfl, rfl⟩, .inr (.inl ⟨rfl, rfl⟩), .inr (.inr ⟨rfl, rfl⟩)⟩

theorem wit_ComparisonsWriteMaskBits :
    (st thv).current = some thv ∧ FloatType 2 fp16 16 ∧ IntType 5 8 ∧ thv.head = none :=
  ⟨rfl, .inr (.inr ⟨rfl, rfl, rfl⟩), .inr (.inr ⟨rfl, rfl⟩), rfl⟩

/-- The lowest enabled element of m1 is 0, of m1 without it 1; m3 enables none; 5 is an integer type. -/
theorem wit_VectorMovesCarryRawBits :
    (st thv).current = some thv ∧ (IntType 5 8 ∨ ∃ F, FloatType 5 F 8) ∧ (IntType 0 32 ∨ ∃ F, FloatType 0 F 32)
    ∧ (0 < 64 ∧ (thv.getM 1).getLsbD 0 = true) ∧ (let t := thv.setM 2 (1 <<< 63); (t.getM 2).getLsbD 63 = true ∧ ∀ j, j < 63 → (t.getM 2).getLsbD j = false)
    ∧ (∀ j, j < 256 → (thv.getM 3).getLsbD j = false) ∧ 3 ≤ (3 : BitVec 4).toNat :=
  ⟨rfl, .inl (.inr (.inr ⟨rfl, rfl⟩)), .inr ⟨fp32, .inl ⟨rfl, rfl, rfl⟩⟩, by decide, by decide +kernel, by decide +kernel, by decide⟩

theorem wit_VectorConversionsWorkOn64Lanes : (st thv).current = some thv ∧ thv.head = none := ⟨rfl, rfl⟩

theorem wit_ReductionsCombineEnabledElements :
    (st thv).current = some thv ∧ IntType 5 8 ∧ FloatType 1 bf16 16 ∧ thv.head = none :=
  ⟨rfl, .inr (.inr ⟨rfl, rfl⟩), .inr (.inl ⟨rfl, rfl, rfl⟩), rfl⟩

/-- The lowest set bit at 63, the last below N for 32-bit elements, and none. -/
theorem wit_MaskInstructionsWriteTheirBits :
    (st thv).current = some thv ∧ (IntType 3 32 ∨ ∃ F, FloatType 3 F 32)
    ∧ (let t := thv.setM 2 (1 <<< 63); (t.getM 2).getLsbD 63 = true ∧ ∀ j, j < 63 → (t.getM 2).getLsbD j = false)
    ∧ (∀ j, j < 64 → (thv.getM 3).getLsbD j = false) :=
  ⟨rfl, .inl (.inl ⟨rfl, rfl⟩), by decide +kernel, by decide +kernel⟩

/-- An operation whose flags FTRAP enables, without a head. -/
theorem wit_ScalarFloatsComputeTheirRow :
    let th := { user [0x7F7FFFFF] with ftrap := 4 }
    (st th).current = some th ∧ th.head = none ∧ (fp32.add th.frm 0x7F7FFFFF 0x7F7FFFFF).2 &&& th.ftrap ≠ 0
    ∧ (fp32.add th.frm 0x7F7FFFFF 0x3F800000).2 &&& th.ftrap = 0 :=
  ⟨rfl, rfl, by decide +kernel, by decide +kernel⟩

/-- A value of each class of FP32, the smallest normal number among them; −0 stands below +0, and 1 below 2. -/
theorem wit_ScalarFloatsComputeTheirRow_values :
    (match fp32.decode 0x7F800001, fp32.decode 0x7FC00000, fp32.decode 0xFF800000, fp32.decode 0x80000000, fp32.decode 0, fp32.decode 1,
        fp32.decode 0x80800000 with
      | .nan true, .nan false, .inf true, .fin true 0 _, .fin false 0 _, .fin false 1 _, .fin true (_ + 1) _ => true
      | _, _, _, _, _, _, _ => false) = true
    ∧ (fp32.decode 0x3F800000).compare (fp32.decode 0x40000000) = some .lt ∧ 0xFFFFFFFF < 2 ^ fp32.bits ∧ 0xFFFF < 2 ^ bf16.bits := by
  refine ⟨?_, ?_, ?_, ?_⟩ <;> decide +kernel

/-- The lanes of m1 at a pointer, stride and offset. -/
def lanesAt (P : Word) (step : Nat) : List (Nat × Word) :=
  ((List.range 64).filter (fun i => (thv.getM 1).getLsbD i)).map (fun i => (i, P + BitVec.ofNat 64 (i * step)))

/-- The check of a lane of n bytes. -/
def laneCheck (s : State) (th : Thread) (kind : AccessKind) (role : Role) (P : Word) (n : Nat) : Check Acc :=
  checkAccess s (cxOf s th) th.place.handle kind role false P n n

/-- Every lane passes its check. -/
def lanesPass (s : State) (th : Thread) (kind : AccessKind) (role : Role) (l : List (Nat × Word)) (n : Nat) : Bool :=
  l.all (fun p => isOk (laneCheck s th kind role p.2 n))

/-- The pointer of a byte of a bank of the own cluster under the E4M3 window. -/
def inWindow1 (b off : Nat) : Word := inBank b off ||| 0x0200000000000000

/-- A load and a store that pass, with no flag of a stored form, and one whose lane 1 overflows in E4M3 with OF enabled; a load and a store
whose first lane is misaligned, a load whose lane 4 lies on a page without a mapping, and one of a bank that is about to change. -/
theorem wit_VectorAccessesFormTheirLanes :
    (st thv).current = some thv ∧ lanesPass (st thv) thv .load .engineLoad (lanesAt 0x1000 4) 4 = true
    ∧ isTrap (laneCheck (st thv) thv .load .engineLoad 0x1001 4) = true
    ∧ (lanesPass (st thv) thv .load .engineLoad [(0, 0x20000), (1, 0x20004)] 4 && isTrap (laneCheck (st thv) thv .load .engineLoad 0x900000000000 4)) = true
    ∧ isBusy (laneCheck (changing (st thv) 5) thv .load .engineLoad (inBank 5 0) 4) = true
    ∧ lanesPass (st thv) thv .store .engineStore (lanesAt 0x1000 8) 4 = true
    ∧ (lanesAt 0x1000 8).all (fun p => (storeForm thv.frm 0 (element (thv.getV 1) 32 p.1).toNat).2 == 0) = true
    ∧ isTrap (laneCheck (st thv) thv .store .engineStore 0x1001 4) = true
    ∧ isBusy (laneCheck (changing (st thv) 5) thv .store .engineStore (inBank 5 0) 4) = true
    ∧ (let th := { thv with ftrap := 4 }
      let s := (st th).putBank 5 { Bank.reset with mode := .scratch }
      (lanesAt (inWindow1 5 0x1FFC0) 1).all (fun p => holds (laneCheck s th .store .engineStore p.2 1) (fun acc => acc.win == 1))
        && (storeForm th.frm 1 (element (th.getV 1) 32 0).toNat).2 &&& th.ftrap == 0
        && (storeForm th.frm 1 (element (th.getV 1) 32 1).toNat).2 &&& th.ftrap != 0) = true := by
  refine ⟨rfl, ?_, ?_, ?_, ?_, ?_, ?_, ?_, ?_, ?_⟩ <;> decide +kernel

/-- A lane of 4 bytes of DRAM. -/
def lane (i p : Nat) (d : Word) : Lane := { idx := i, ptr := BitVec.ofNat 64 p, loc := .dram p, lpage := false, win := 0, data := d }

def lanes0 : List Lane := [lane 0 0x1000 0x11223344, lane 4 0x1004 0x55667788, lane 63 0x1004 0x99AABBCC]

/-- A thread that may write K page 5, of one reference, and a state in which it can. -/
def stk : State :=
  (one (user [0x50000]) []).putCore 0
    { core0 with tlb := [{ asid := 0, page := 5, large := false, pte := 0x0001001000050000 ||| 0x4DF, pteAddr := 0x80028 }] }

/-- A lane of 4 bytes of a bank. -/
def bankLane (i p : Nat) (d : Word) : Lane := { idx := i, ptr := inBank 0 p, loc := .bank p, lpage := false, win := 0, data := d }

/-- Lanes of both kinds, two of them at one place. -/
def lanes1 : List Lane := lanes0 ++ [bankLane 5 0x1000 0xDDEEFF00]

/-- A lane of the L page. -/
def lLane (i p : Nat) : Lane := { lane i p 0x99 with lpage := true }

/-- A load and a store of DRAM and of a bank, lane 63 among them and two lanes at one place; a store that meets a tag that cannot be read, and one
that meets an EVALUATING word; a VSTQ that passes; one at its head, with OF enabled, whose lane 63 saturates. -/
theorem wit_VectorAccessesCompleteLaneByLane :
    (let op := HeadOp.vload 3 lanes1;
      let s := stm (headed th0 op)
      s.thread 0 = some (headed th0 op) ∧ (headed th0 op).head = some (headOf op)
      ∧ lanes1.Pairwise (fun l k => l.idx ≠ k.idx)
      ∧ lanes1.all (fun l => decide (l.idx < 64) && !lineHeld s l.loc (laneSize l.ptr) && !l.blocked s && l.loc != .remote 0 0
        && (loadForm l.win (readLoc s l.loc (laneSize l.ptr))).2 &&& th0.ftrap == 0) = true)
    ∧ (let op := HeadOp.vstore lanes1 3;
      Tidy (stm (headed th0 op)) ∧ (headed th0 op).head = some (headOf op)
      ∧ lanes1.all (fun l => !lineHeld (stm (headed th0 op)) l.loc (laneSize l.ptr) && !l.lpage) = true
      ∧ (∀ l ∈ lanes1, ∃ x, l.loc = .dram x ∨ l.loc = .bank x)
      ∧ lanes1 = [lane 0 0x1000 0x11223344, lane 4 0x1004 0x55667788] ++ lane 63 0x1004 0x99AABBCC :: [bankLane 5 0x1000 0xDDEEFF00])
    ∧ (let l := [lLane 0 0x2000C]
      let op := HeadOp.vstore l 0
      let s := stm (headed th0 op)
      l = [] ++ lLane 0 0x2000C :: [] ∧ (lLane 0 0x2000C).lpage = true ∧ lineHeld s (.dram 0x2000C) 4 = false
      ∧ lineHeld (marked s) (.dram 0x2000C) 4 = false ∧ tagBad (marked s) 0x2000C = true
      ∧ tagBad s 0x2000C = false ∧ s.tag 0x2000C = 2 ∧ (headed th0 op).evalOf ≠ some (0x2000C / 8 * 8))
    ∧ stk.current = some (user [0x50000])
    ∧ (∃ r, checkVstq stk (user [0x50000]) ((user [0x50000]).getX 1 + (1 : BitVec 8).signExtend 64 <<< 8) = .ok r)
    ∧ (let op := HeadOp.vstq 0x1008 0x1008 0x1000 0x8000000000000001 0x7F7FFFFF;
      let th := { headed th0 op with ftrap := 4 }
      Tidy (stm th) ∧ th.head = some (headOf op) ∧ lineHeld (stm th) (.dram 0x1008) 64 = false
      ∧ lineHeld (stm th) (.dram 0x1000) 8 = false ∧ (stm th).isBad 0x1000 4 = false ∧ 0x1000 + 8 ≤ 0x1008) := by
  refine ⟨⟨rfl, rfl, ?_, ?_⟩, ⟨tidy_of ?_, rfl, ?_, ?_, rfl⟩, ⟨rfl, rfl, ?_⟩, rfl, ok_of ?_, ⟨tidy_of ?_, rfl, ?_⟩⟩
  case refine_5 =>
    intro l hl
    simp only [lanes1, lanes0, List.cons_append, List.nil_append, List.mem_cons, List.not_mem_nil, or_false] at hl
    rcases hl with rfl | rfl | rfl | rfl <;> exact ⟨_, by first | exact .inl rfl | exact .inr rfl⟩
  all_goals decide +kernel

/-- A lane of the L page that its thread evaluates, and one through the REMOTE space of a word that is not VALUE. -/
theorem wit_VectorAccessesCompleteLaneByLane_more :
    (let l := [lLane 0 0x2000C]
      let th := { headed th0 (.vstore l 0) with evalOf := some 0x20008 };
      Tidy (stm th) ∧ th.head = some (headOf (.vstore l 0)) ∧ l.all (fun k => !lineHeld (stm th) k.loc (laneSize k.ptr)) = true
      ∧ tagBad (stm th) 0x2000C = false ∧ (lLane 0 0x2000C).ptr.extractLsb' 60 4 ≠ 4 ∧ (stm th).tag 0x2000C = 2
      ∧ th.evalOf = some (0x2000C / 8 * 8) ∧ 0x2000C % laneSize (lLane 0 0x2000C).ptr = 0)
    ∧ (let k := { lLane 0 0x20000 with ptr := 0x4000000000020000 };
      k.ptr.extractLsb' 60 4 = 4 ∧ k.loc = .dram 0x20000 ∧ k.lpage = true ∧ tagBad (stm th0) 0x20000 = false ∧ (stm th0).tag 0x20000 ≠ 0
      ∧ lineHeld (stm th0) k.loc (laneSize k.ptr) = false) := by
  refine ⟨⟨tidy_of ?_, rfl, ?_⟩, ?_⟩ <;> decide +kernel

/-! ### The matrix engine -/

/-- Core 0 holds a tile for thread `o`. -/
def tiled (th : Thread) (o : Option Nat) (int : Bool) : State :=
  let c := core0
  (st th).putCore 0 (c.setTile 2 { holder := o, int := int, elems := 0x12345678903F80000000FFFFFFFFFF, clamp := 5 })

/-- Threads 1 and 2 of core 0 wait for tile 2, thread 1 for longer. -/
def queuedFor : State :=
  let w := fun (k since : Nat) => { th0 with place := .slot k, wait := some (.macq 2 true since) }
  { tiled th0 (some 0) false with threads := [(0, th0), (1, w 1 5), (2, w 2 6)], nextTid := 3 }

/-- A tile that is free, the thread's own, and another's; a tile that two threads wait for; MXCNT with flags that FTRAP enables, and that it does
not; both kinds of MCFG operand. -/
theorem wit_TilesAndMatrixCountersAreManaged :
    (tiled th0 none false).current = some th0 ∧ th0.wait = none ∧ (((tiled th0 none false).core 0).tile 2).holder = none
    ∧ (((tiled th0 (some 0) false).core 0).tile 2).holder = some (tiled th0 (some 0) false).cur
    ∧ ((((tiled th0 (some 3) false).core 0).tile 2).holder = some 3 ∧ 3 ≠ (tiled th0 (some 3) false).cur) ∧ th0.head = none
    ∧ (queuedFor.current = some th0 ∧ ((queuedFor.core 0).tile 2).holder = some queuedFor.cur ∧ rising queuedFor.threads
      ∧ queuedFor.threads.all (fun p => p.1 == 0 || p.2.isBound && p.2.core == 0
        && (p.2.wait == some (.macq 2 true 5) && p.1 == 1 || p.2.wait == some (.macq 2 true 6) && p.1 == 2)) = true)
    ∧ (tiled th0 (some 0) false).threads.all (fun p => p.2.wait == none) = true
    ∧ (th0.getX 3).extractLsb' 3 61 = (0 : BitVec 61) ∧ (th0.getX 1).extractLsb' 3 61 ≠ (0 : BitVec 61)
    ∧ (29 : BitVec 5) &&& th0.ftrap = 0
    ∧ (let th := { th0 with ftrap := 4, mxcnt := 0x10000 }
      (st th).current = some th ∧ (th.mxcnt.extractLsb' 16 16) ≠ 0 ∧ (20 : BitVec 5) &&& th.ftrap ≠ 0) := by
  refine ⟨rfl, rfl, ?_, ?_, ?_, rfl, ⟨rfl, ?_, ?_, ?_⟩, ?_, ?_, ?_, ?_, ⟨rfl, ?_⟩⟩
  case refine_5 => simp [rising, queuedFor]
  all_goals decide +kernel

/-- The check of an operand of 2,048 bytes. -/
def operand (s : State) (th : Thread) (P : Word) : Check (List (Acc × Nat)) := checkRegion s th .load .engineLoad P 2048 64

/-- A region without line, mark or tag, of its whole length. -/
def clean (s : State) (n : Nat) (r : List (Acc × Nat)) : Bool :=
  !regionHeld s r && (regionBad s r).isNone && (regionCells s r).isEmpty && (regionBytes s r).length == n

/-- A tile that is not held, one of the other kind, and one of the right kind with its two operands. -/
theorem wit_IntegerProductsAreSummedModulo :
    (tiled th0 none true).current = some th0 ∧ (((tiled th0 none true).core 0).tile 2).holder ≠ some (tiled th0 none true).cur
    ∧ (((tiled th0 (some 0) false).core 0).tile 2).int = false
    ∧ (let s := tiled th0 (some 0) true
      ((s.core 0).tile 2).holder = some s.cur ∧ ((s.core 0).tile 2).int = true
      ∧ (∃ ra, operand s th0 (th0.getX 1) = .ok ra ∧ clean s 2048 ra = true) ∧ ∃ rb, operand s th0 (th0.getX 0) = .ok rb ∧ clean s 2048 rb = true) := by
  refine ⟨rfl, ?_, ?_, ?_, ?_, ok_with ?_, ok_with ?_⟩ <;> decide +kernel

/-- A thread whose x4 and x5 name a Mint panel of two block columns at 5. -/
def thMint' : Thread := (th0.setX 4 5).setX 5 0x20000

/-- An operand that fails and one that must wait, of each kind of tile; the second operand that fails after the first; of a Mint panel as many
columns as it has; and the pointers of the checks. -/
theorem wit_IntegerProductsAreSummedModulo_operands :
    [true, false].all (fun int => (((tiled th0 (some 0) int).core 0).tile 2).holder == some 0
      && (((tiled th0 (some 0) int).core 0).tile 2).int == int && isTrap (operand (tiled th0 (some 0) int) th0 (th0.getX 3))
      && holds (operand (tiled th0 (some 0) int) th0 (th0.getX 1)) (fun _ => true)
      && isBusy (operand (changing (tiled th0 (some 0) int) 5) th0 (inBank 5 0))) = true
    ∧ (let nb := ((thMint'.getX (4 + 1)).extractLsb' 16 16).toNat; 2 ≤ nb ∧ ((thMint'.getX (4 + 1)).extractLsb' 0 16).toNat + 2 ≤ nb)
    ∧ (holds (operand (tiled thMint' (some 0) false) thMint' (thMint'.getX 1)) (fun _ => true)
      && isTrap (checkRegion (tiled thMint' (some 0) false) thMint' .load .engineLoad (thMint'.getX 4) (128 * 2) 4)) = true
    ∧ (0x4000000000001000 : Word).extractLsb' 60 4 = 4
    ∧ ((0x1020 : Word).extractLsb' 52 12 = 0 ∧ (0x1020 : Word).toNat % 64 ≠ 0)
    ∧ ((0xF800 : Word).extractLsb' 52 12 = 0 ∧ (0xF800 : Word).toNat % 64 = 0 ∧ (0xF800 : Word).toNat % 65536 + 2048 ≤ 65536) := by
  refine ⟨?_, ?_, ?_, ?_, ?_, ?_⟩ <;> decide +kernel

/-- The memory of the cells, with a tile held. -/
def tiledCells : State :=
  { tiled th0 (some 0) false with mem := (stm th0).mem, tags := (stm th0).tags }

/-- Two operands of data; one with a marked byte; one with a SUSPENDED word. -/
theorem wit_FloatProductsAreSummedExactly :
    let s := tiled th0 (some 0) false
    s.current = some th0 ∧ ((s.core 0).tile 2).holder = some s.cur ∧ ((s.core 0).tile 2).int = false
    ∧ (∃ ra, operand s th0 (th0.getX 1) = .ok ra ∧ clean s 2048 ra = true) ∧ (∃ rb, operand s th0 (th0.getX 0) = .ok rb ∧ clean s 2048 rb = true)
    ∧ holds (operand tiledCells th0 (th0.getX 4)) (fun r => (regionBytes tiledCells r).length == 2048 && !regionHeld tiledCells r
      && (regionBad tiledCells r).isNone && (regionCells tiledCells r).head? == some (0x20000, 0x20000)
      && regionBad (marked tiledCells) r == some 0x20000 && !regionHeld (marked tiledCells) r) = true := by
  refine ⟨rfl, ?_, ?_, ok_with ?_, ok_with ?_, ?_⟩ <;> decide +kernel

/-- A thread whose x4 and x5 name a Mint panel of two block columns at 0x2000. -/
def thMint : Thread := (th0.setX 4 0x2000).setX 5 0x20000

/-- A panel of 63 blocks of NaNs of 18 bytes each, and a last one with bias 127, table 3 and 32 tokens of one bit. -/
def mintState : State :=
  let s := tiled thMint (some 0) false
  { s with mem := (List.range 64).foldl (fun m i =>
    (m.writeLE (0x2000 + 4 * i) 4 (256 + 18 * i)).writeLE (0x2100 + 18 * i) 2 (if i = 63 then 0x387F else 0xFF)) [] }

/-- A panel without a table: every offset is 0. -/
def mintEmpty : State := tiled thMint (some 0) false

/-- The table's offset of the i-th of the 64 blocks that columns of two K-blocks from 0 use. -/
def mintStart (s : State) (rt : List (Acc × Nat)) (i : Nat) : Nat :=
  (List.range 4).foldl (fun v k => v + (regionBytes s rt).getD (4 * i + k) 0 * 256 ^ k) 0

/-- The bytes from its start to its limit. -/
def mintSize (s : State) (rt : List (Acc × Nat)) (i : Nat) : Nat :=
  min (if i + 1 < 64 then mintStart s rt (i + 1) else mintStart s rt i + 62) (mintStart s rt i + 62) - mintStart s rt i

/-- What is read of it. -/
def mintPart (s : State) (rt : List (Acc × Nat)) (i : Nat) : Check (List (Acc × Nat)) :=
  if mintStart s rt i < 256 ∨ mintSize s rt i = 0 then .ok [] else blockRegion s thMint (0x2000 + BitVec.ofNat 64 (mintStart s rt i)) (mintSize s rt i)

/-- A region without line, mark or tag. -/
def dataOnly (s : State) (r : List (Acc × Nat)) : Bool := !regionHeld s r && (regionBad s r).isNone && (regionCells s r).isEmpty

/-- A block of NaNs decodes (R199), and so does one of bias 127 whose 32 tokens are one bit each (R198). -/
theorem nan_block (byte : Nat → Nat) (size : Nat) (h : 18 ≤ size) (h1 : byte 1 < 64) (h0 : byte 0 = 255) :
    BlockDecodes byte size (fun _ => .nan false) := ⟨h, h1, fun _ _ _ => rfl, fun n => absurd h0 n⟩

theorem unary_block (byte : Nat → Nat) (size : Nat) (h : 22 ≤ size) (h1 : byte 1 = 56) (h0 : byte 0 = 127) (hs : ∀ k, 17 < k → byte k = 0) :
    ∃ e, BlockDecodes byte size e := by
  refine ⟨fun k => _, by omega, by omega, fun n => by omega, fun _ => ⟨id, fun _ => 0, rfl, by simp; omega, fun k hk => ⟨?_, by simp, rfl⟩⟩⟩
  have hb : ∀ i, (byte (18 + i / 8) / 2 ^ (i % 8) % 2 == 1) = false := fun i => by rw [hs _ (by omega)]; simp
  simp only [h1]
  refine .inl ⟨0, by omega, fun i hi => absurd hi (by omega), hb _, by simp, rfl⟩

/-- A panel of one column, of as many as are left of it; one that is read and decoded, and one whose first block has an offset inside the
table. -/
theorem wit_MintPanelsAreDecodedAndMultiplied :
    mintState.current = some thMint ∧ ((mintState.core 0).tile 2).holder = some mintState.cur ∧ ((mintState.core 0).tile 2).int = false
    ∧ mintEmpty.current = some thMint ∧ ((mintEmpty.core 0).tile 2).holder = some mintEmpty.cur ∧ ((mintEmpty.core 0).tile 2).int = false
    ∧ ((thMint.getX (0 + 1)).extractLsb' 16 16).toNat < 2
    ∧ (let nb := ((thMint.getX (4 + 1)).extractLsb' 16 16).toNat;
      nb = 2 ∧ 2 ≤ nb ∧ ((thMint.getX (4 + 1)).extractLsb' 0 16).toNat + 2 ≤ nb)
    ∧ (∃ ra, operand mintState thMint (thMint.getX 0) = .ok ra ∧ clean mintState 2048 ra = true)
    ∧ (∃ rt, checkRegion mintState thMint .load .engineLoad (thMint.getX 4) 256 4 = .ok rt ∧ (clean mintState 256 rt
      && (List.range 64).all (fun i => !(decide (mintStart mintState rt i < 256)) && decide (18 ≤ mintSize mintState rt i)
        && holds (mintPart mintState rt i) (fun r => dataOnly mintState r
          && (if i = 63 then (regionBytes mintState r).take 2 == [127, 56] && ((regionBytes mintState r).drop 2).all (· == 0)
            else (regionBytes mintState r).take 2 == [255, 0])))) = true)
    ∧ (∃ ra, operand mintEmpty thMint (thMint.getX 0) = .ok ra ∧ clean mintEmpty 2048 ra = true)
    ∧ ∃ rt, checkRegion mintEmpty thMint .load .engineLoad (thMint.getX 4) 256 4 = .ok rt ∧ (clean mintEmpty 256 rt
      && (List.range 64).all (fun i => decide (mintStart mintEmpty rt i < 256))) = true := by
  refine ⟨rfl, ?_, ?_, rfl, ?_, ?_, ?_, ?_, ok_with ?_, ok_with ?_, ok_with ?_, ok_with ?_⟩ <;> decide +kernel

/-- The pointers of 32 rows. -/
def rowsAt (P stride : Nat) : List Word := (List.range 32).map (fun i => BitVec.ofNat 64 P + BitVec.ofNat 64 i * BitVec.ofNat 64 stride)

/-- A row of 32 elements of z bytes. -/
def rowCheck (s : State) (kind : AccessKind) (role : Role) (z : Nat) (P : Word) : Check (List (Acc × Nat)) := checkRegion s th0 kind role P (32 * z) z

/-- A reserved bit, a code that MLD and one that MST refuses of a tile of floats, a load of 32-bit rows and a store of byte rows; a load and a
store of which row 1 is not mapped; a row with a marked byte and one with a SUSPENDED word. -/
theorem wit_TileMovesConvertTheirElements :
    let s := tiled th0 (some 0) false
    s.current = some th0 ∧ ((s.core 0).tile 2).holder = some s.cur ∧ ((s.core 0).tile 2).int = false
    ∧ (th0.getX 1).extractLsb' 3 29 ≠ 0
    ∧ (let c := ((th0.setX 6 1).getX 6); c.extractLsb' 3 29 = 0 ∧ (c.extractLsb' 0 3).toNat ∉ [0, 7])
    ∧ (let c := ((th0.setX 6 5).getX 6); c.extractLsb' 3 29 = 0 ∧ (c.extractLsb' 0 3).toNat ∉ [0, 1, 2, 3, 4, 7])
    ∧ ((th0.getX 0).extractLsb' 3 29 = 0 ∧ ((th0.getX 0).extractLsb' 0 3).toNat ∈ [0, 7] ∧ ((th0.getX 0).extractLsb' 0 3).toNat ∈ [0, 1, 2, 3, 4, 7])
    ∧ (rowsAt 0x1000 128).all (fun P => holds (rowCheck s .load .engineLoad 4 P) (clean s 128)) = true
    ∧ (rowsAt 0x1000 32).all (fun P => holds (rowCheck s .store .engineStore 1 P) (fun r => (regionBytes s r).length == 32)) = true
    ∧ (holds (rowCheck s .load .engineLoad 4 0x4FF80) (clean s 128) && isTrap (rowCheck s .load .engineLoad 4 (0x4FF80 + 0x900000000000))) = true
    ∧ (holds (rowCheck s .store .engineStore 4 0x1000) (fun r => !r.isEmpty)
      && isTrap (rowCheck s .store .engineStore 4 (0x1000 + 0x900000000000))) = true
    ∧ holds (rowCheck tiledCells .load .engineLoad 4 0x20000) (fun r => !regionHeld tiledCells r && (regionBad tiledCells r).isNone
      && (regionCells tiledCells r).head? == some (0x20000, 0x20000) && regionBad (marked tiledCells) r == some 0x20000
      && !regionHeld (marked tiledCells) r) = true := by
  refine ⟨rfl, ?_, ?_, ?_, ?_, ?_, ?_, ?_, ?_, ?_, ?_, ?_⟩ <;> decide +kernel

/-- Rows of 32 elements that a store checks: row 1 fails, and row 0 has no tag, an EVALUATING word, or one whose tag cannot be read. -/
theorem wit_TileMovesConvertTheirElements_rows :
    let row := fun (s : State) (P : Word) => rowCheck s .store .engineStore 4 P
    let local_ := fun (r : List (Acc × Nat)) => r.all (fun q => (List.range q.2).all (fun j => (q.1.ptr + BitVec.ofNat 64 j).extractLsb' 60 4 != 4))
    (holds (row tiledCells 0x1000) (fun r => !regionHeld tiledCells r && local_ r && r.all (fun q => !q.1.lpage))
      && isTrap (row tiledCells (0x1000 + 0x900000000000))
      && holds (row tiledCells 0x20008) (fun r => !regionHeld tiledCells r && local_ r
        && (r.take 1).all (fun q => decide (0 < q.2) && q.1.lpage && q.1.loc == .dram 0x20008 && q.1.ptr == 0x20008))
      && isTrap (row tiledCells (0x20008 + 0x900000000000)) && !tagBad tiledCells 0x20008 && tiledCells.tag 0x20008 == 2 && th0.evalOf.isNone
      && tagBad (marked tiledCells) 0x20008 && holds (row (marked tiledCells) 0x20008) (fun r => !regionHeld (marked tiledCells) r)
      && isTrap (row (marked tiledCells) (0x20008 + 0x900000000000))) = true := by decide +kernel

theorem wit_TileRowsMoveToVectors :
    (tiled thv (some 0) true).current = some thv ∧ (((tiled thv (some 0) true).core 0).tile 2).holder = some (tiled thv (some 0) true).cur :=
  ⟨rfl, by decide +kernel⟩

theorem wit_TileRowsMoveToVectors_notHeld :
    (tiled thv none true).current = some thv ∧ (((tiled thv none true).core 0).tile 2).holder ≠ some (tiled thv none true).cur ∧ thv.head = none :=
  ⟨rfl, by decide +kernel, rfl⟩

/-- The thread at the front of the matrix queue with each of the heads; two elements of 2 bytes, one after the other, and one of a bank; an
element whose tag cannot be read, and one of an EVALUATING word; a head that met a mark, and one that met a word that is VALUE by now. -/
theorem wit_MatrixHeadsCompleteInOrder :
    let lanes := [lane 0 0x1000 0x11223344, lane 1023 0x1002 0x55667788, bankLane 5 0x1000 0xDDEEFF00]
    (let op := HeadOp.mma 3 5 6 0xFFFF000100010001;
      (stm (headed th0 op)).thread 0 = some (headed th0 op) ∧ (headed th0 op).head = some (headOf op) ∧ queueFirst (stm (headed th0 op)) 0 = true)
    ∧ (let op := HeadOp.mld 3 5 0x0001000100010001;
      (headed th0 op).head = some (headOf op) ∧ queueFirst (stm (headed th0 op)) 0 = true)
    ∧ (let op := HeadOp.mst 3 2 lanes 0x0001000100010001;
      (headed th0 op).head = some (headOf op) ∧ queueFirst (stm (headed th0 op)) 0 = true ∧ Tidy (stm (headed th0 op))
      ∧ lanes.all (fun l => !lineHeld (stm (headed th0 op)) l.loc 2 && !l.lpage) = true
      ∧ (∀ l ∈ lanes, ∃ x, l.loc = .dram x ∨ l.loc = .bank x)
      ∧ lanes = [] ++ lane 0 0x1000 0x11223344 :: [lane 1023 0x1002 0x55667788, bankLane 5 0x1000 0xDDEEFF00] ∧ 0x1000 + 2 ≤ 0x1002)
    ∧ (let op := HeadOp.mst 3 2 [lLane 0 0x2000C] 0
      let s := stm (headed th0 op)
      queueFirst s 0 = true ∧ queueFirst (marked s) 0 = true ∧ Tidy (marked s) ∧ tagBad (marked s) 0x2000C = true ∧ tagBad s 0x2000C = false
      ∧ s.tag 0x2000C = 2 ∧ (headed th0 op).evalOf ≠ some (0x2000C / 8 * 8) ∧ lineHeld s (.dram 0x2000C) 2 = false)
    ∧ (let op := HeadOp.marked 3 0x1008
      (headed th0 op).head = some (headOf op) ∧ queueFirst (stm (headed th0 op)) 0 = true)
    ∧ (let op := HeadOp.cells 3 0x20018 0x20018
      (headed th0 op).head = some (headOf op) ∧ queueFirst (stm (headed th0 op)) 0 = true ∧ (stm (headed th0 op)).tag 0x20018 = 0) := by
  refine ⟨⟨rfl, rfl, ?_⟩, ⟨rfl, ?_⟩, ⟨rfl, ?_, tidy_of ?_, ?_, ?_, rfl, ?_⟩, ⟨?_, ?_, tidy_of ?_, ?_⟩, ⟨rfl, ?_⟩, ⟨rfl, ?_⟩⟩
  case refine_6 =>
    intro l hl
    simp only [List.mem_cons, List.not_mem_nil, or_false] at hl
    rcases hl with rfl | rfl | rfl <;> exact ⟨_, by first | exact .inl rfl | exact .inr rfl⟩
  all_goals decide +kernel

/-- An MST of its thread's own cell. -/
theorem wit_MatrixHeadsCompleteInOrder_ownCell :
    (let l := [lLane 0 0x2000C]
      let th := { headed th0 (.mst 3 2 l 0) with evalOf := some 0x20008 };
      Tidy (stm th) ∧ th.head = some (headOf (.mst 3 2 l 0)) ∧ queueFirst (stm th) 0 = true
      ∧ l.all (fun k => !lineHeld (stm th) k.loc 2 && k.ptr.extractLsb' 60 4 != 4) = true ∧ l.Pairwise (fun a b => a.idx ≠ b.idx)
      ∧ tagBad (stm th) 0x2000C = false ∧ (stm th).tag 0x2000C = 2 ∧ th.evalOf = some (0x2000C / 8 * 8) ∧ 0x2000C % 2 = 0) := by
  refine ⟨tidy_of ?_, rfl, ?_, ?_, ?_, ?_⟩ <;> decide +kernel

/-! ### Words, steps and the state -/

/-- Every reset state meets the invariant, and its step is a next state. -/
theorem wit_TablesStayCanonical : Tidy State.reset ∧ ∃ t, step State.reset = .next t :=
  ⟨tidy_of (by decide +kernel), by
    have h : (match step State.reset with | .next _ => true | _ => false) = true := by decide +kernel
    revert h
    cases step State.reset with
    | next t => exact fun _ => ⟨t, rfl⟩
    | fault e => intro h; cases h
    | refused e => intro h; cases h⟩

/-- Nothing is due and core 0 issues thread 0. -/
def issuesNext (s : State) (th : Thread) : Prop := s.agenda = [] ∧ s.phase = 0 ∧ dueBefore s = none ∧ nextIssue s = some (0, 0, th)

/-- The word that it fetches passes a test. -/
def fetches (s : State) (th : Thread) (p : BitVec 32 → Bool) : Prop :=
  ∃ r, fetch (noteIssue s 0 0 th) th = .ok r ∧ (p r.word && !losesPort (noteIssue s 0 0 th) 0 ((banksWanted (noteIssue s 0 0 th) th r.word).map (fun b => b.1))) = true

/-- Thread 0 with a word at its PC. -/
def at0 (th : Thread) (w : Nat) : State := one th (Memory.writeLE [] th.pc.toNat 4 w)

/-- A thread with a load of x5 at its head and a window of one more word. -/
def thWin : Thread :=
  { headed th0 (.load 5 8 false 0x1000 (.dram 0x1000) false) with window := some { headPc := 0x100, dest := .x 5, left := 1 } }

/-- The same with the load done. -/
def thAfter : Thread := { thWin with head := none }

/-- LW x5, x1, of bank 5 in SCRATCH mode, whose port has granted this cycle. -/
def portTaken : State :=
  (at0 { user [inBank 5 0] with pc := 0x100 } 0x00001296).putBank 5 { Bank.reset with mode := .scratch, granted := 1 }

/-- A PC that is misaligned, a word in a line that a copy engine owns, a word that no row names, ADD, and in a window a word that reads x5, one that
does not and ECALL; a load that loses its bank's port; a page's last word. -/
theorem wit_StepRunsTheDecodedInstruction :
    (let th := { th0 with pc := 0x102 }; issuesNext (at0 th 0) th ∧ isTrap (fetch (noteIssue (at0 th 0) 0 0 th) th) = true)
    ∧ (let th := { th0 with pc := 0x1000 }; isBusy (fetch (noteIssue (owned (at0 th 0)) 0 0 th) th) = true)
    ∧ (issuesNext (at0 th0 0) th0 ∧ fetches (at0 th0 0) th0 (fun w => !decodes w))
    ∧ (let s := at0 th0 0x000A4181; issuesNext s th0 ∧ th0.window = none ∧ fetches s th0 decodes)
    ∧ (let s := at0 thAfter 0x000A4181; issuesNext s thAfter ∧ fetches s thAfter (fun w => decodes w && windowWord w true (.x 5) == .hazard))
    ∧ (let s := at0 thWin 0x0008C181; issuesNext s thWin ∧ fetches s thWin (fun w => decodes w && windowWord w true (.x 5) == .eligible))
    ∧ (let s := at0 thAfter 0x00000029; issuesNext s thAfter ∧ fetches s thAfter (fun w => decodes w && windowWord w true (.x 5) == .ends))
    ∧ (let th := { user [inBank 5 0] with pc := 0x100 }
      issuesNext portTaken th ∧ holds (fetch (noteIssue portTaken 0 0 th) th) (fun r => losesPort (noteIssue portTaken 0 0 th) 0
        ((banksWanted (noteIssue portTaken 0 0 th) th r.word).map (fun b => b.1))) = true)
    ∧ (let th := { th0 with pc := 0xFFFC }; issuesNext (at0 th 0x000A4181) th ∧ th.pc.toNat % 4 = 0 ∧ fetchAddressOk th.pc = true
      ∧ (∃ h, translate (noteIssue (at0 th 0x000A4181) 0 0 th) (cxOf (noteIssue (at0 th 0x000A4181) 0 0 th) th) .fetch 0xFFFC th.pc = .ok h
        ∧ (h.entry.pa 0xFFFC == 0xFFFC) = true)
      ∧ ((noteIssue (at0 th 0x000A4181) 0 0 th).core 0).icache.find (0xFFFC / 32) = none
      ∧ ownedAt (noteIssue (at0 th 0x000A4181) 0 0 th) true 0xFFFC 4 = false
      ∧ (noteIssue (at0 th 0x000A4181) 0 0 th).isBad 0xFFFC 4 = false) := by
  refine ⟨⟨⟨rfl, rfl, ?_, ?_⟩, ?_⟩, ?_, ⟨⟨rfl, rfl, ?_, ?_⟩, ?_⟩, ⟨⟨rfl, rfl, ?_, ?_⟩, rfl, ?_⟩, ⟨⟨rfl, rfl, ?_, ?_⟩, ?_⟩,
    ⟨⟨rfl, rfl, ?_, ?_⟩, ?_⟩, ⟨⟨rfl, rfl, ?_, ?_⟩, ?_⟩, ⟨⟨rfl, rfl, ?_, ?_⟩, ?_⟩, ⟨rfl, rfl, ?_, ?_⟩, ?_, ?_, ?_, ?_, ?_, ?_⟩
  all_goals first
    | decide +kernel
    | (refine ok_with ?_; decide +kernel)

/-- Core 0 caches page 4 without U, and its page table gives it with U; a thread that has trapped at a load of it in this cycle. -/
def stale : State :=
  let s := walked [0x40000]
  let th := { user [0x40000] with trapUntil := some 16, cause := 25, entered := .supervisor }
  { s.putCore 0 { s.core 0 with tlb := [page 4 4 0xC3] } with threads := [(0, th)] }

/-- The word of LD x5, x1. -/
def ldWord : BitVec 32 := (encode (.ld 5 1 0 0)).getD 0

theorem wit_StepRunsTheDecodedInstruction_stale :
    accessPointers th0 0x000A4181 = [] ∧ (∀ x, (st th0).thread 0 = some x → x.trapUntil ≠ some ((st th0).cycle + 16))
    ∧ (let th := user [0x40000]
      let p : Word := 0x40000;
      accessPointers th ldWord = [(p, 8)]
      ∧ stale.thread 0 = some { user [0x40000] with trapUntil := some 16, cause := 25, entered := .supervisor }
      ∧ stale.cycle + 16 = 16 ∧ (holds (spaceOf (cxOf stale th) (clusterOfCore th.core) (accessKind ldWord) false p) (fun x => match x with
          | .global va => va == 0x40000
          | _ => false)
        && decide (p.toNat % accessAlign ldWord 8 = 0)
        && (tlbFind stale th.core (cxOf stale th).asid 0x40000).any (fun e => !admits (cxOf stale th).mode (accessKind ldWord) e.pte)
        && holds (walkHit stale (cxOf stale th) (accessKind ldWord) 0x40000 p) (fun _ => true)) = true) := by
  refine ⟨?_, ?_, ?_, rfl, ?_, ?_⟩
  · decide +kernel
  · intro x h
    cases h
    decide
  all_goals decide +kernel

/-- An instruction of each format that has a word. -/
theorem wit_DecodeInvertsEncode :
    ([(.add 3 4 5, 0x000A4181), (.addi 5 6 0x7FFF, 0xFFFE6284), (.bne 5 6 0xFFD, 0xFFD26290), (.mmaE4m3 2 0 10 11 0, 0x0016A140)] :
      List (Instr × BitVec 32)).all (fun p => p.1.wellFormed && encode p.1 == some p.2) = true := by decide +kernel

theorem wit_EncodeInvertsDecode : decode 0x0148A3A0#32 = .ok (.aadd 7 10 4 0 5 0) := by rfl

end Sys2Proof.Tests
end

