-- ==== Sys2Proof/Tests/WitnessUnits.lean ====
section
/-!
SUPPORT. Tests: the witnesses of the statements about atomics, KV pages, meets, tasks, messages, copies and the events of the machine,
clause by clause, at the boundary values of the ranges.
-/
namespace Sys2Proof.Tests
open Sys2Proof Sys2Proof.Machine

set_option Elab.async false

/-! ### Atomics and the soft-max merge -/

/-- Thread 0 in launch 1, whose staging budget of 512 bytes is taken up to a mark; x5 names the D page. -/
def staging (b : Nat) : State :=
  let th := { th0 with lctx := 1 }
  { st th with
    launches := [(1, { lau with budget := b, hdr := { lau.hdr with stagesize := 512 } })],
    cores := [(0, { core0 with served := [{ lctx := 1, idx := 0, csrs := { CtxCsrs.reset with tvec := 0x4000 }, deficit := 0, starved := 0 }] })] }

def thStg : Thread := { th0 with lctx := 1 }

/-- The same with a table for the package's own REMOTE number, whose page 1 has D. -/
def ownNumber : State :=
  { staging 448 with helben := { State.reset.helben with remotes := [(0, 0x100000)] },
                     mem := words [(0x100000, 0x110001), (0x110000, 0x120001), (0x120008, 0x1011F)] }

/-- A plain word and one of a D page, also through the package's own REMOTE number, with the last budget that admits a record and the first that does not; a misaligned word. The
same of a merge of five blocks, and one of an L page. -/
theorem wit_AtomicsSendTheirRequest :
    (st th0).current = some th0 ∧ holds (atomAccess (st th0) th0 (th0.getX 1) 8 true) (fun acc => !acc.dpage) = true
    ∧ (staging 448).current = some thStg
    ∧ holds (atomAccess (staging 448) thStg (thStg.getX 5) 4 false) (fun acc => acc.dpage) = true
    ∧ holds (atomAccess ownNumber thStg 0x4000000000010000 4 false) (fun acc => acc.dpage && acc.win == 8) = true
    ∧ (let P : Word := 0x4000000000010000
      let s := ownNumber
      P.extractLsb' 60 4 = 4 ∧ s.fabric.torus = false ∧ (P.extractLsb' 52 8).toNat = s.fabric.device ∧ s.fabric.device < 192 ∧ P.toNat % 4 = 0
      ∧ s.helben.remotes.find s.fabric.device = some 0x100000
      ∧ holds (walkHit s { cxOf s thStg with core := none, asid := 0, ptbase := 0x100000 } .store (P.extractLsb' 0 52).toNat P) (fun _ => true) = true)
    ∧ ((0x1000000000000000 : Word).extractLsb' 60 4 = 1 ∧ (0x2000000000000000 : Word).extractLsb' 60 4 = 2
      ∧ (0xF000000000000000 : Word).extractLsb' 60 4 = 15 ∧ (sup th0).mode = .supervisor ∧ th0.mode = .user)
    ∧ ((staging 448).launches.find thStg.lctx.toNat).map (fun l => decide (l.budget + 64 ≤ l.hdr.stagesize)) = some true
    ∧ ((staging 449).launches.find thStg.lctx.toNat).map (fun l => decide (l.hdr.stagesize < l.budget + 64)) = some true
    ∧ isTrap (atomAccess (st th0) th0 (th0.getX 3) 4 true) = true
    ∧ holds (smergeBlocks (st th0) th0 (th0.getX 1) 5) (fun l => decide (l.length = 5)
      && l.all (fun h => !h.2.entry.pte.getLsbD 8 && !h.2.entry.pte.getLsbD 9 && !h.2.entry.pte.getLsbD 10)) = true
    ∧ holds (smergeBlocks (st th0) th0 (th0.getX 4) 5) (fun l => decide (l.length = 5) && l.any (fun h => h.2.entry.pte.getLsbD 9)) = true
    ∧ holds (smergeBlocks (staging 192) thStg (thStg.getX 5) 5) (fun l => decide (l.length = 5)
      && l.all (fun h => h.2.entry.pte.getLsbD 8 && !h.2.entry.pte.getLsbD 9 && !h.2.entry.pte.getLsbD 10)) = true
    ∧ ((staging 192).launches.find thStg.lctx.toNat).map (fun l => decide (l.budget + 320 ≤ l.hdr.stagesize)) = some true
    ∧ ((staging 193).launches.find thStg.lctx.toNat).map (fun l => decide (l.hdr.stagesize < l.budget + 320)) = some true
    ∧ watched (st th0) 0 (th0.getX 1) 320 = false ∧ watched (staging 192) 0 (thStg.getX 5) 320 = false ∧ thStg.lctx ≠ 0 := by
  refine ⟨rfl, ?_, rfl, ?_⟩
  · decide +kernel
  · decide +kernel

/-- An atomic of one operation and size. -/
def atomOf (op size pa : Nat) (staged : Bool) : AtomReq :=
  { d := 5, op := op, size := size, ptr := BitVec.ofNat 64 pa, loc := .dram pa, lpage := false, staged := staged, b := 0x4000000080000001,
    c := 0x1111, mult := 3, frm := 0, wid := 5, seqno := 9 }

/-- A merge into two blocks that do not follow each other. -/
def mergeOf (m : BitVec 32) (staged : Bool) : SmergeReq :=
  { ptr := 0x1000, blocks := [0x1000, 0x2000], op := 0, staged := staged, m := m, l := 0x40000000, o := List.replicate 16 0x3F800000, mult := 1,
    frm := 0, wid := 0, seqno := 0 }

def thWait (w : Wait) : Thread := { thStg with wait := some w }

/-- A state whose triple has the M given. -/
def triple (m : Nat) (r : SmergeReq) : State := { st (thWait (.smerge r)) with mem := words [(0x1000, 0x3F00000000000000 + m)] }

/-- Every operation at the first size of its row; two −∞, a NaN on either side and two numbers; a staged record of each kind. -/
theorem wit_SlicePerformsItsAtomics :
    ([(0, 8), (2, 4), (3, 8), (4, 4), (5, 8), (6, 4), (7, 8), (8, 4), (11, 8), (12, 4), (13, 8), (1, 4), (9, 4), (10, 4), (14, 4)].all (fun p =>
      let pa := 0x1000 + p.2
      let r := atomOf p.1 p.2 pa false
      let s := stm (thWait (.atom r))
      tidy s && s.thread 0 == some (thWait (.atom r)) && (thWait (.atom r)).place == .slot 0 && !lineHeld s (.dram pa) r.size
        && !s.isBad pa r.size && pa % r.size == 0)) = true
    ∧ ([(0xFF800000, 0xFF800000), (0x7FC00000, 0x3F800000), (0x3F800000, 0x7F800001), (0xFF800000, 0x3F800000), (0x40000000, 0x40000000)].all
      (fun p =>
        let r := mergeOf (BitVec.ofNat 32 p.2) false
        let s := triple p.1 r
        tidy s && s.thread 0 == some (thWait (.smerge r)) && decide r.blocks.Nodup && r.blocks.all (fun b => b % 64 == 0
          && !lineHeld s (.dram b) 64 && !s.isBad b 64) && 64 * r.blocks.length == 64 + 4 * r.o.length
          && s.mem.readLE (blockAddr r.blocks 0) 4 == p.1 && r.m.toNat == p.2)) = true
    ∧ ([Wait.atom (atomOf 0 4 0x10000 true), .smerge (mergeOf 0 true)].all (fun w =>
        let s := (staging 64).putThread 0 (thWait w)
        s.thread 0 == some (thWait w) && (s.launches.find (thWait w).lctx.toNat).isSome
          && (s.launches.map (fun p => (p.2.staged.filter (fun x => x.spill.isNone)).length)).foldl (· + ·) 0 == 0)) = true := by
  refine ⟨?_, ?_, ?_⟩ <;> decide +kernel

/-! ### Key-value pages -/

/-- The leaf of a page table. -/
def leafOf (pa bits count owner : Nat) : Nat := pa + bits + count * 2 ^ 48 + owner * 2 ^ 56

/-- A context whose table maps page 0 and the K pages 8 to 10: page 8 has a count and an owner, page 10 belongs to die 2. The pool at
0x2000 has two free pages, the purse at 0x2100 what is given. A descriptor of KVPASS stands at 0x4000. -/
def kvState (rem drawn esc brokered count owner : Nat) (th : Thread) : State :=
  { st th with
    mem := words [(0x2000, 2 + esc * 2 ^ 32), (0x2008, 0x3000), (0x2010, 4 + brokered * 2 ^ 32), (0x2018, brokered), (0x2100, 0x2000),
      (0x2108, rem + drawn * 2 ^ 32), (0x3000, 0x90000), (0x3008, 0xA0000), (0x4000, 0x5000), (0x4008, 0x77), (0x4010, 2 + 2 * 256),
      (0x4018, 0x80000), (0x4020, 0x90000), (0x100000, 0x110001), (0x110000, 0x120001), (0x120000, leafOf 0 0x9F 0 0),
      (0x120040, leafOf 0x1000000000 0x497 count owner), (0x120048, leafOf 0x1000010000 0x497 0 0), (0x120050, leafOf 0x1000020000 0x497 0 2),
      (0x1000000000, 0x3F000000), (0x1000000008, 0x2000)],
    cores := [(0, { core0 with
      tlb := [], broker := [0x90000], brokerOf := some (0x2000, CtxCsrs.reset),
      served := [{ lctx := 0, idx := 0, csrs := { CtxCsrs.reset with tvec := 0x4000, ptbase := 0x100000 }, deficit := 0, starved := 0 }] })] }

/-- x1 names the purse, x2 is a number or 0, x3 page 8 and x4 the descriptor; x5 names no purse. -/
def thKv (n : Word) : Thread := user [0x2100, n, 0x80000, 0x4000, 0x50000]

/-- The purse and the pool that x1 names. -/
def purse (s : State) (n : Word) (p : KvPurse × KvPool → Bool) : Bool := tidy s && s.current == some (thKv n) && holds (readPurse s (thKv n) 0x2100) p

/-- The K page 8. -/
def kpage (s : State) (n : Word) (kind : AccessKind) (p : KvPage → Bool) : Bool :=
  tidy s && s.current == some (thKv n) && holds (kvPage s (thKv n) kind 0x80000 0x80000) (fun g => admits .user kind g.pte && p g)

/-- A purse that cannot be read; 0 pages, one more than are free, all that are free, and a refund; counters below 2^32. -/
theorem wit_KvReservationsMoveCounters :
    isTrap (readPurse (kvState 1 1 1 0 1 0 (thKv 0)) (thKv 0) 0x50000) = true
    ∧ purse (kvState 1 1 1 0 1 0 (thKv 0)) 0 (fun r => isOk (kvWrites (kvState 1 1 1 0 1 0 (thKv 0)) (thKv 0) r.1 r.2)) = true
    ∧ purse (kvState 1 1 1 0 1 0 (thKv 2)) 2 (fun r => decide (r.2.free + r.2.granted - r.2.escrowed < 2)) = true
    ∧ purse (kvState 1 1 1 0 1 0 (thKv 1)) 1 (fun r => decide (1 ≤ r.2.free + r.2.granted - r.2.escrowed)
      && isOk (kvWrites (kvState 1 1 1 0 1 0 (thKv 1)) (thKv 1) r.1 r.2)) = true
    ∧ purse (kvState 1 1 1 0 1 0 (thKv 0)) 0 (fun r => decide (r.1.acc.loc = .dram 0x2100
      ∧ r.2.free < 2 ^ 32 ∧ r.2.escrowed < 2 ^ 32 ∧ r.2.granted < 2 ^ 32 ∧ r.1.remaining < 2 ^ 32 ∧ r.1.drawn < 2 ^ 32)) = true := by
  refine ⟨?_, ?_, ?_, ?_, ?_⟩ <;> decide +kernel

/-- An empty purse; a brokered pool without a page, for a page with one reference and with more, and one with a page; an empty purse at a shared
page; a page of another die, the last drawn page; a page with one
reference and with 255; a release of a page with no, one and more references. -/
theorem wit_KvPagesAreDrawnCopiedAndReturned :
    purse (kvState 0 1 1 0 1 0 (thKv 0)) 0 (fun r => r.1.remaining == 0) = true
    ∧ ([1, 255].all (fun count =>
      let s := { kvState 1 1 1 1 count 0 (thKv 0) with cores := (kvState 1 1 1 1 1 0 (thKv 0)).cores.map (fun p => (p.1, { p.2 with broker := [] })) }
      purse s 0 (fun r => r.1.remaining != 0 && holds (kvDraw s (thKv 0) r.2) (fun g => g.isNone))
        && kpage s 0 .load (fun o => !lineHeld s (.dram o.pa) 65536 && !s.isBad o.pa 65536 && o.count == count))) = true
    ∧ (let s := kvState 0 1 1 0 2 0 (thKv 0)
      purse s 0 (fun r => r.1.remaining == 0) && kpage s 0 .load (fun o => decide (1 < o.count))) = true
    ∧ (let s := kvState 1 1 1 1 1 0 (thKv 0)
      purse s 0 (fun r => isOk (kvWrites s (thKv 0) r.1 r.2) && holds (kvDraw s (thKv 0) r.2) (fun g =>
        match g with | some x => !lineHeld s (.dram x.1.pa) 24 && !ownedAt s true x.1.leaf 8 && !pageOutstanding s x.1.pa | none => false)) = true)
    ∧ (let s := kvState 1 1 1 0 1 3 (thKv 0)
      purse s 0 (fun _ => true) = true ∧ kpage s 0 .load (fun g => g.owner != dieOfCore 0) = true)
    ∧ (let s := kvState 1 1 1 0 1 0 (thKv 0)
      purse s 0 (fun r => r.1.drawn != 0 && isOk (kvPush s (thKv 0) r.2) && isOk (kvWrites s (thKv 0) r.1 r.2)
        && kpage s 0 .load (fun g => g.owner == dieOfCore 0 && g.count == 1 && !ownedAt s true g.leaf 8 && holds (headerPool s g) (fun a => a == r.2.addr))) = true)
    ∧ (let s := kvState 1 1 1 0 255 0 (thKv 0)
      purse s 0 (fun r => r.1.remaining != 0 && isOk (kvWrites s (thKv 0) r.1 r.2) && kpage s 0 .load (fun o => decide (1 < o.count)
        && !lineHeld s (.dram o.pa) 65536 && !s.isBad o.pa 65536 && !ownedAt s true o.leaf 8) && holds (kvDraw s (thKv 0) r.2) (fun g =>
          match g with | some x => !lineHeld s (.dram x.1.pa) 65536 && !ownedAt s true x.1.leaf 8 && !pageOutstanding s x.1.pa | none => false)) = true)
    ∧ kpage (kvState 1 1 1 0 0 0 (thKv 0)) 0 .load (fun g => g.count == 0) = true
    ∧ kpage (kvState 1 1 1 0 2 0 (thKv 0)) 0 .load (fun g => decide (1 < g.count) && !ownedAt (kvState 1 1 1 0 2 0 (thKv 0)) true g.leaf 8) = true
    ∧ (let s := kvState 1 1 1 0 1 0 (thKv 0)
      kpage s 0 .load (fun g => g.count == 1 && !ownedAt s true g.leaf 8 && holds (headerPool s g) (fun a => holds (readPool s (thKv 0) a) (fun p =>
        isOk (kvPush s (thKv 0) p) && isOk (kvAccess s (thKv 0) .store p.addr 64 64)))) = true)
    ∧ (255 < 256 ∧ 3 < 4) ∧ (0x1000000000 + 65536 ≤ 0x1000010000) := by
  refine ⟨?_, ?_, ?_, ?_, ?_, ?_, ?_, ?_, ?_, ?_, ?_⟩ <;> decide +kernel

/-- A page of another die, of no reference, of 254, of 255; a store to a page of one reference and of two; a descriptor that is not clean,
one of no page and one of two. -/
theorem wit_KvPagesAreSharedPassedAndScaled :
    kpage (kvState 1 1 1 0 1 1 (thKv 0)) 0 .load (fun g => g.owner != dieOfCore 0) = true
    ∧ kpage (kvState 1 1 1 0 0 0 (thKv 0)) 0 .load (fun g => g.owner == dieOfCore 0 && g.count == 0) = true
    ∧ kpage (kvState 1 1 1 0 255 0 (thKv 0)) 0 .load (fun g => g.count == 255) = true
    ∧ kpage (kvState 1 1 1 0 254 0 (thKv 0)) 0 .load (fun g => g.count == 254 && !pageOutstanding (kvState 1 1 1 0 254 0 (thKv 0)) g.pa
      && !ownedAt (kvState 1 1 1 0 254 0 (thKv 0)) true g.leaf 8) = true
    ∧ kpage (kvState 1 1 1 0 1 1 (thKv 0)) 0 .store (fun g => g.owner != dieOfCore 0) = true
    ∧ kpage (kvState 1 1 1 0 2 0 (thKv 0)) 0 .store (fun g => g.owner == dieOfCore 0 && decide (1 < g.count)) = true
    ∧ (let s := kvState 1 1 1 0 1 0 (thKv 0)
      kpage s 0 .store (fun g => decide (g.count ≤ 1) && !lineHeld s (.dram g.pa) 4 && !s.isBad g.pa 4) = true)
    ∧ (let s := kvState 1 1 1 0 1 0 (thKv 0)
      holds (readDescriptor { s with mem := s.mem.writeLE 0x4078 8 1 } (thKv 0) 0x4000) (fun r => r.1.getD 15 0 != 0) = true)
    ∧ (let s := kvState 1 1 1 0 1 0 (thKv 0)
      holds (readDescriptor s (thKv 0) 0x4000) (fun r => r.1.getD 15 0 == 0 && ((r.1.getD 2 0).extractLsb' 8 8).toNat == 2
        && isOk (kvGlobal r.2 (thKv 0) (r.1.getD 0 0))
        && holds (checkAccess r.2 (cxOf r.2 (thKv 0)) (thKv 0).place.handle .store .scalar false (r.1.getD 0 0) 8 8) (fun fa => !lineHeld r.2 fa.loc 8)
        && holds (passPages r.2 (thKv 0) ((r.1.drop 3).take 2)) (fun l => l.all (fun g => !ownedAt r.2 true g.leaf 8 && !pageOutstanding r.2 g.pa))) = true)
    ∧ (let s := kvState 1 1 1 0 1 0 (thKv 0)
      holds (readDescriptor { s with mem := s.mem.writeLE 0x4010 8 2 } (thKv 0) 0x4000) (fun r => r.1.getD 15 0 == 0
        && ((r.1.getD 2 0).extractLsb' 8 8).toNat == 0 && isOk (kvGlobal r.2 (thKv 0) (r.1.getD 0 0))
        && holds (checkAccess r.2 (cxOf r.2 (thKv 0)) (thKv 0).place.handle .store .scalar false (r.1.getD 0 0) 8 8) (fun fa => !lineHeld r.2 fa.loc 8)
        && isOk (passPages r.2 (thKv 0) ((r.1.drop 3).take 0))) = true) := by
  refine ⟨?_, ?_, ?_, ?_, ?_, ?_, ?_, ?_, ?_, ?_⟩ <;> decide +kernel

/-! ### Meets -/

/-- A thread at table 3 with x6 live; x2 is the third operand, x4 a place in bank 4. -/
def thMeet (b : Word) : Thread :=
  { user [0x1000000000060000, b, 5, 0x1000000000080010, 0, 0xFEDC] with live := 0x40, mult := 3, wid := 9, fflags := 5, mxcnt := 0xFFFF000100020003 }

/-- Bank 3 holds the table and bank 4 is SCRATCH. -/
def meeting (tab : Table) (b : Word) : State :=
  (({ st (thMeet b) with cycle := 0x12345 } : State).putBank 3 { Bank.reset with mode := .meet tab }).putBank 4 { Bank.reset with mode := .scratch }

/-- The hash of that thread, its set's first way, and its key. -/
def hash3 : Word := (0xFEDC ^^^ 0x100) ^^^ (BitVec.ofNat 64 3 <<< 48)
def way0 : Nat := (hash3.extractLsb' 0 8 ^^^ hash3.extractLsb' 8 8).toNat * 4
def key3 : MeetKey :=
  { pc := 0x100, lctx := 0, mode := .user, live := 0x40, vals := [0xFEDC], frm := (thMeet 0).frm, ftrap := (thMeet 0).ftrap,
    mxcfg := (thMeet 0).mxcfg, privbase := (thMeet 0).privbase, utvec := (thMeet 0).utvec, cell := (thMeet 0).cell }

/-- An entry in a way. -/
def entry (k : MeetKind) (w : Nat) (dep : Option Nat) (h : Word) : Nat × MeetEntry :=
  (way0 + w, { hash := h, key := key3, kind := k, mult := 7, wid := 4, flags := 2, org := none, counts := [1, 2, 3, 0xFFFF], owner := 1, d := 7,
               windowEnd := 0x1000, collision := false, merged := false, serial := 77, departed := dep })

def table (es : List (Nat × MeetEntry)) (ins : List MeetInst) : Table := { entries := es, insts := ins, serial := 5, log := none }

/-- An instance of the thread's own PC. -/
def inst (target sum : Nat) : MeetInst := { pc := 0x100, lctx := 0, target := target, sum := sum }

/-- The statement's hypotheses about the table and the thread, and a test of the table. -/
def arrives (b : Word) (tab : Table) (p : Table → Bool) : Bool :=
  let s := meeting tab b
  s.current == some (thMeet b) && (thMeet b).wait.isNone && s.threads.map (fun q => q.1) == [0] && s.launches.isEmpty
    && holds (tableBank s (thMeet b) ((thMeet b).getX 1)) (fun n => n == 3) && tableOf s 3 == some tab && p tab

/-- Whether a way holds an open entry of the hash, and whether it holds one that has not departed. -/
def openIn (tab : Table) (w : Nat) : Bool := match tab.entries.find (way0 + w) with
  | some e => e.departed.isNone && e.hash == hash3
  | none => false
def takenIn (tab : Table) (w : Nat) : Bool := match tab.entries.find (way0 + w) with
  | some e => e.departed.isNone
  | none => false

/-- An entry to join in way 2 behind another hash; way 3 the lowest that is free; four ways taken; a departed one of the key; an instance
that is new, below its target and at its target; the sixteenth and a seventeenth instance. -/
theorem wit_MeetsMergeEqualArrivals :
    arrives 0 (table [entry .timed 0 none 1, entry .timed 2 none hash3] []) (fun t => openIn t 2 && !openIn t 0 && !openIn t 1) = true
    ∧ arrives 8 (table [entry .timed 0 none 1, entry .timed 1 none 1, entry .timed 2 (some 0x100) 1] [])
      (fun t => (t.entries.find (way0 + 3)).isNone && (List.range 4).all (fun w => !openIn t w)) = true
    ∧ arrives 8 (table [entry .timed 0 none 1, entry .timed 1 none 1, entry .timed 2 none 1, entry .timed 3 none 2] [])
      (fun t => (List.range 4).all (fun w => takenIn t w && !openIn t w)) = true
    ∧ arrives 8 (table [entry .timed 0 none 1, entry .timed 1 (some 0x100) hash3] [])
      (fun t => (List.range 4).all (fun w => !openIn t w) && ((t.entries.find (way0 + 1)).map (fun e => e.hash == hash3 && e.key == key3)) == some true) = true
    ∧ arrives 4 (table [] []) (fun t => (t.insts.find? (fun x => x.pc == 0x100 && x.lctx == 0)).isNone && decide (3 < 4)) = true
    ∧ arrives 4 (table [] [inst 11 7]) (fun t => (t.insts.find? (fun x => x.pc == 0x100 && x.lctx == 0)) == some (inst 11 7) && decide (7 + 3 < 11)) = true
    ∧ arrives 4 (table [] [inst 10 7]) (fun t => (t.insts.find? (fun x => x.pc == 0x100 && x.lctx == 0)) == some (inst 10 7) && decide (10 ≤ 7 + 3)) = true
    ∧ arrives 3 (table [] []) (fun t => (t.insts.find? (fun x => x.pc == 0x100 && x.lctx == 0)).isNone && decide (3 ≤ 3)) = true
    ∧ arrives 4 (table [] (List.replicate 16 { inst 10 7 with pc := 0x200 }))
      (fun t => (t.insts.find? (fun x => x.pc == 0x100 && x.lctx == 0)).isNone && decide (16 ≤ t.insts.length)) = true := by
  refine ⟨?_, ?_, ?_, ?_, ?_, ?_, ?_, ?_, ?_⟩ <;> decide +kernel

/-- A TIMED entry whose owner, thread 1, waits for it in its last rotation, a merged one beside it, and one of a later rotation; the log has room
for one more record. -/
def tab3 : Table :=
  let e := fun (w endsAt : Nat) (merged : Bool) => (way0 + w, { (entry .timed w none hash3).2 with windowEnd := endsAt, merged := merged })
  { table [e 1 0x1234 true, e 2 0x1234 true, e 3 0x1235 false] [] with log := some { start := 4 * 2 ^ 17 + 0x1FFE0, count := 1, lost := false } }

def owner1 : Thread := { user [] with place := .slot 1, wait := some (.meet 7 3 (way0 + 1)) }

def departing : State := (meeting tab3 0).putThread 1 owner1

/-- An instance that ends, with an entry of its own of another hash, whose owner waits for it. -/
theorem wit_MeetsMergeEqualArrivals_owner :
    let e := (entry .counted 0 none 1).2
    let tab := table [(way0, e)] [inst 10 7]
    let owner := { user [] with place := .slot 1, wait := some (.meet 7 3 way0) }
    let s := (meeting tab 4).putThread 1 owner
    s.current = some (thMeet 4) ∧ tableOf s 3 = some tab ∧ rising tab.entries ∧ tab.entries.find way0 = some e ∧ e.departed = none
    ∧ e.kind = .counted ∧ e.key.pc = (thMeet 4).pc ∧ e.key.lctx = (thMeet 4).lctx ∧ e.hash ≠ hash3 ∧ s.thread e.owner = some owner
    ∧ owner.wait = some (.meet e.d 3 way0) := by
  refine ⟨rfl, ?_, ?_, ?_⟩
  case refine_2 => simp [rising, table]
  all_goals decide +kernel

/-- The departures of that table; a bank without one; a table that is full of freed and waiting entries; a mask of 8 registers, of 9 and with x0;
MCLR; the log's place of 0, in a bank that is SCRATCH, in one that is not, and misaligned. -/
theorem wit_MeetTablesDepartClearAndLog :
    tableOf departing 4 = none ∧ tableOf departing 3 = some tab3 ∧ rising tab3.entries
    ∧ (let gone := tab3.entries.filter (fun p => p.2.departed.isNone && p.2.kind == .timed && decide (p.2.windowEnd ≤ departing.cycle / 16))
      gone.map (fun p => p.1) = [way0 + 1, way0 + 2] ∧ (gone.filter (fun p => p.2.merged)).length = 2
      ∧ tab3.log = some { start := 4 * 2 ^ 17 + 0x1FFE0, count := 1, lost := false }
      ∧ logRoom { start := 4 * 2 ^ 17 + 0x1FFE0, count := 1, lost := false } = 1 ∧ departing.late = []
      ∧ ownedAt departing false (4 * 2 ^ 17 + 0x1FFE0) (131072 - (4 * 2 ^ 17 + 0x1FFE0) % 131072) = false
      ∧ (departing.bank ((4 * 2 ^ 17 + 0x1FFE0) / 131072)).changes = []
      ∧ ((departing.putBank 4 { departing.bank 4 with changes := [{ word := 0, tid := 0, seq := 0 }] }).bank 4).changes ≠ []
      ∧ (gone.head?.map (fun p => p.2.owner)) = some 1 ∧ (gone.head?.map (fun p => (p.2.mult, p.2.counts.length))) = some (7, 4))
    ∧ departing.thread 1 = some owner1 ∧ owner1.wait = some (.meet 7 3 (way0 + 1)) ∧ owner1.redo = none
    ∧ departing.thread 0 = some (thMeet 0) ∧ (thMeet 0).wait = none ∧ departing.current = some (thMeet 0)
    ∧ 2 ^ 32 ≤ { (entry .timed 1 none hash3).2 with mult := 2 ^ 32 }.mult
    ∧ (let X : Word := 0x1FE
      X.extractLsb' 32 32 = 0 ∧ X.getLsbD 0 = false ∧ (List.range 32).countP (fun i => X.getLsbD i) ≤ 8)
    ∧ (let X : Word := 0x3FE; 8 < (List.range 32).countP (fun i => X.getLsbD i)) ∧ (1 : Word).getLsbD 0 = true
    ∧ holds (tableBank departing (thMeet 0) ((thMeet 0).getX 1)) (fun n => n == 3) = true
    ∧ (let P := (thMeet 0).getX 4
      P ≠ 0 ∧ P.extractLsb' 57 7 = 8 ∧ P.extractLsb' 22 35 = 0 ∧ P.extractLsb' 0 4 = 0
      ∧ ((meeting (table [] []) 0).bank (0 + (P.extractLsb' 17 5).toNat)).mode = .scratch
      ∧ ((meeting (table [] []) 0).bank (0 + (P.extractLsb' 17 5).toNat)).changes = [])
    ∧ (let P := (thMeet 0).getX 1; P.extractLsb' 0 4 = 0 ∧ ((meeting (table [] []) 0).bank (0 + (P.extractLsb' 17 5).toNat)).mode ≠ .scratch)
    ∧ (thMeet 0).getX 3 ≠ 0 ∧ ((thMeet 0).getX 3).extractLsb' 0 4 ≠ 0 := by
  refine ⟨?_, ?_, ?_, ?_⟩
  case refine_3 => simp [rising, tab3, table]
  all_goals decide +kernel

/-! ### Tasks and launches -/

/-- A launch of 3 by 5 with a leaf of three tasks at index 2 and index 7 closed. -/
def launch1 : Launch :=
  { lau with hdr := { lau.hdr with widths := [4, 4], extents := [3, 5], diemask := 1, stagesize := 512 }, total := 15, leaves := [(2, (3, 0))], closed := [7] }

/-- A task record: flags and join in word 4, multiplicity and launch in word 5. -/
def record (at_ wid join flags mult lc : Nat) : List (Nat × Nat) :=
  [(at_, 0x400), (at_ + 8, 0x55), (at_ + 16, wid), (at_ + 32, join + flags * 2 ^ 32), (at_ + 40, mult + lc * 2 ^ 32)]

/-- A thread of launch 1 with a record at x1 and x2 as the second operand. -/
def thTask (p b : Word) : Thread := { user [p, b] with lctx := 1, mult := 3, widself := 2 }

def working (th : Thread) (mem : List (Nat × Nat)) : State :=
  { st th with mem := words mem, launches := [(1, launch1)], cores := [(0, { core0 with
      served := [{ lctx := 1, idx := 0, csrs := { CtxCsrs.reset with tvec := 0x4000 }, deficit := 0, starved := 0 }] })] }

/-- A record that is read, and a test of its words and of the state then. -/
def recordAt (s : State) (th : Thread) (p : List Word → State → Bool) : Bool :=
  tidy s && s.current == some th && holds (readRecord s (cxOf s th) th.place.handle (th.getX 1)) (fun r => p r.1 r.2)

/-- A record to spawn, on the own core and on core 1, one of a bad flag, one whose multiplicity reaches 2^32, one of a closed index; join counts
with 0 added, at both sides of 2^31, that stay above, reach and pass below 0, and that reach 2^31; a record that cannot be read, one of a
page without W, and one whose push fails. -/
theorem wit_TasksArePushedJoinedAndRetired :
    recordAt (working (thTask 0x1000 1) (record 0x1000 2 2 0x30 5 0)) (thTask 0x1000 1) (fun l s1 =>
      spawnRecordOk l 1 && decide (3 * ((l.getD 5 0).extractLsb' 0 32).toNat < 2 ^ 32) && spawnTargetOk s1 (thTask 0x1000 1) 1
        && coreOfCsr 1 == some 1
        && isOk (chargeAndPush s1 0 0 { kind := .task, entry := 0x400, arg := 0x55, x11 := 0x1000, wid := 2, widself := 2, prio := 3, mult := 15, lctx := 1 })
        && isOk (chargeAndPush s1 0 1 { kind := .task, entry := 0x400, arg := 0x55, x11 := 0x1000, wid := 2, widself := 2, prio := 3, mult := 15, lctx := 1 }))
      = true
    ∧ recordAt (working (thTask 0x1000 1152) (record 0x1000 2 1 4 0 0)) (thTask 0x1000 1152) (fun l s1 => !spawnRecordOk l 1 && !contRecordOk s1 l
        && (coreOfCsr 1152).isNone) = true
    ∧ recordAt (working (thTask 0x1000 1152) (record 0x1000 2 0 0 0 0)) (thTask 0x1000 1152) (fun l _ => spawnRecordOk l 1 && (coreOfCsr 1152).isNone) = true
    ∧ recordAt (working (thTask 0x1000 0) (record 0x1000 2 0 0 0xFFFFFFFF 0)) (thTask 0x1000 0) (fun l _ =>
        spawnRecordOk l 1 && decide (2 ^ 32 ≤ 3 * ((l.getD 5 0).extractLsb' 0 32).toNat)) = true
    ∧ recordAt (working (thTask 0x1000 0) (record 0x1000 7 0 0 0 0)) (thTask 0x1000 0) (fun l s1 => spawnRecordOk l 1
        && !isOk (chargeAndPush s1 0 0 { kind := .task, entry := 0x400, arg := 0x55, x11 := 0x1000, wid := 7, widself := 7, prio := 0, mult := 3, lctx := 1 }))
      = true
    ∧ [(1, 0), (0x7FFFFFFF, 0), (0x80000000, 0), (2, -1), (2, -2), (2, -3), (1, 0x7FFFFFFF)].all (fun p =>
        let th := thTask 0x1000 (BitVec.ofInt 64 p.2)
        recordAt (working th (record 0x1000 1 p.1 1 0 0)) th (fun l s1 => contRecordOk s1 l
          && ((l.getD 4 0).extractLsb' 0 32).toNat == p.1 && (p.2 == 0 || holds (checkAccess s1 (cxOf (working th (record 0x1000 1 p.1 1 0 0)) th)
            th.place.handle .store .scalar false (0x1000 + 32) 4 4) (fun acc => !lineHeld s1 acc.loc 4)))) = true
    ∧ recordAt (working (thTask 0x1000 (-1)) (record 0x1000 1 1 1 9 0)) (thTask 0x1000 (-1)) (fun _ s1 =>
        isOk (chargeAndPush s1 0 0 { kind := .task, entry := 0x400, arg := 0x55, x11 := 0x1000, wid := 1, widself := 1, prio := 0, mult := 9, lctx := 1 }))
      = true
    ∧ (let th := thTask 0x900000000000 0
      isTrap (readRecord (working th []) (cxOf (working th []) th) th.place.handle 0x900000000000) = true)
    ∧ (let th := thTask 0x40000 (-1)
      recordAt (working th (record 0x40000 1 1 1 0 0)) th (fun l s1 => contRecordOk s1 l
        && isTrap (checkAccess s1 (cxOf (working th (record 0x40000 1 1 1 0 0)) th) th.place.handle .store .scalar false (0x40000 + 32) 4 4)) = true)
    ∧ recordAt (working (thTask 0x1000 (-1)) (record 0x1000 7 1 1 9 0)) (thTask 0x1000 (-1)) (fun l s1 => contRecordOk s1 l
        && !isOk (chargeAndPush s1 0 0 { kind := .task, entry := 0x400, arg := 0x55, x11 := 0x1000, wid := 7, widself := 7, prio := 0, mult := 9, lctx := 1 }))
      = true := by
  refine ⟨?_, ?_, ?_, ?_, ?_, ?_, ?_, ?_, ?_, ?_⟩ <;> decide +kernel

/-- RETIRE without a record, with one whose count it lowers, and with one that traps; the counts of a leaf of 3, and of one of 2 at a new index; a
deque of 63, of 64 with and without a spill region, and of 1,088. -/
theorem wit_TasksArePushedJoinedAndRetired_retire :
    (thTask 0 0).getX 1 = 0
    ∧ (let s := working (thTask 0x1000 0) (record 0x1000 1 2 1 0 0)
      s.current = some (thTask 0x1000 0) ∧ holds (contOp s (contBy s (thTask 0x1000 0)) 0x1000 (-1)) (fun r => (r.1.thread r.1.cur).isSome) = true)
    ∧ (let s := working (thTask 0x1000 0) (record 0x1000 1 0 1 0 0)
      isTrap (contOp s (contBy s (thTask 0x1000 0)) 0x1000 (-1)) = true)
    ∧ (let s := working (thTask 0 0) []
      (s.core 0).deque.length < 64 ∧ 64 ≤ (s.core 0).deque.length + 64 ∧ s.launches.find 1 = some launch1 ∧ indexOfWid launch1.hdr 2 = some 2 ∧ launch1.closed.contains 2 = false
      ∧ launch1.leaves.find 2 = some (3, 0) ∧ indexOfWid launch1.hdr 1 = some 1 ∧ launch1.leaves.find 1 = none ∧ nodeTableUsed s 0 < 16384)
    ∧ (let e : DequeEntry := { kind := .task, entry := 0, arg := 0, x11 := 0, wid := 0, widself := 0, prio := 0, mult := 1, lctx := 0 }
      let full := fun (n : Nat) (base : Word) => ({ Core.reset with deque := List.replicate n e, deqspill := base } : Core)
      (full 63 0).deque.length < 64 ∧ 64 ≤ (full 64 0).deque.length ∧ (full 64 0).deqspill = 0 ∧ (full 1087 0x7000).deqspill ≠ 0
      ∧ (full 1087 0x7000).deque.length < 1088 ∧ 1088 ≤ (full 1088 0x7000).deque.length)
    ∧ (let e : DequeEntry := { kind := .task, entry := 0, arg := 0, x11 := 0, wid := 0, widself := 0, prio := 15, mult := 2 ^ 32 - 1, lctx := 65535 }
      let bottom := List.replicate 63 e
      let top := List.replicate 1023 { e with spill := some 0x7000 }
      let s := (working (thTask 0 0) []).putCore 0 { Core.reset with deque := bottom ++ e :: top, deqspill := 0x7000 }
      64 ≤ (s.core 0).deque.length ∧ (s.core 0).deque.length < 1088 ∧ bottom.length = 63 ∧ bottom.all (fun x => x.spill == none)
      ∧ top.all (fun x => x.spill != none) ∧ (0x7000 : Word).toNat + 65536 ≤ 0x3000000000 ∧ s.late = [] ∧ ownedAt s true 0x7000 65536 = false)
    ∧ (let s := { working (thTask 0 0) [] with phase := 1, ended := [{ lctx := 1, wid := 2, core := 0 }] }
      s.agenda = [] ∧ s.phase = 1 ∧ s.ended ≠ []) := by
  refine ⟨?_, ⟨rfl, ?_⟩, ?_, ?_, ?_, ?_, rfl, rfl, ?_⟩ <;> decide +kernel

/-- The words of a launch header: two widths of 4 bits, the extents e0 and 5, the first dependant, the weight and the dies. -/
def headerWords (e0 weight dies dep : Nat) : List Word :=
  [0x400, 0x55, 4 + 4 * 64, BitVec.ofNat 64 e0, 5, 0, 0, 0, 0, 0, 0, BitVec.ofNat 64 dep, 0, BitVec.ofNat 64 (weight + dies * 16), 0, 0]

/-- Its fields. -/
def headerOf (e0 dies dep : Nat) : Header :=
  { entry := 0x400, arg := 0x55, widths := [4, 4], det := false, strict := false, replay := false, syscomp := false, extents := [e0, 5], events := 0,
    target := 0, dep0 := BitVec.ofNat 64 dep, dep1 := 0, weight := 1, diemask := BitVec.ofNat 4 dies, banks := 0, staging := 0, stagesize := 0 }

/-- The header at 0x1080. -/
def headerAt (e0 weight dies dep : Nat) : List (Nat × Nat) :=
  (List.range 16).map (fun i => (0x1080 + 8 * i, ((headerWords e0 weight dies dep).getD i 0).toNat))

/-- A page table at 0x100000 that maps page 0, and the context registers that name it. -/
def tables : List (Nat × Nat) := [(0x100000, 0x110001), (0x110000, 0x120001), (0x120000, 0x1F)]
def tabled : CtxCsrs := { CtxCsrs.reset with tvec := 0x4000, ptbase := 0x100000 }

/-- A thread of launch 1 at the header. -/
def thLaunch : Thread := thTask 0x1080 0

/-- A state with the header, which is read as its words. -/
def launching (e0 weight dies dep : Nat) (more : List (Nat × Nat)) : State := working thLaunch (more ++ headerAt e0 weight dies dep)

def readsHeader (s : State) (w : List Word) : Bool :=
  tidy s && s.current == some thLaunch && isOk (spaceOf (cxOf s thLaunch) 0 .load false 0x1080)
    && holds (loadWords s (cxOf s thLaunch) thLaunch.place.handle 0x1080 16) (fun r => r.1 == w && (r.2.launches.find 1).isSome
      && (r.2.launches.find 2).isNone)

/-- Headers of no index, of 15, of die 1 and with a dependant pass the checks; one of weight 0 passes them with no fields. -/
theorem headers_hold (s : State) (h0 : (s.cluster 0).partId = 0) (h1 : (s.cluster 36).partId = 0) (g0 : (s.cluster 0).retired = false)
    (g1 : (s.cluster 36).retired = false) :
    HeaderHolds s 0 (fun i => (headerWords 0 1 1 0).getD i 0) (headerOf 0 1 0)
    ∧ HeaderHolds s 0 (fun i => (headerWords 3 1 1 0).getD i 0) (headerOf 3 1 0)
    ∧ HeaderHolds s 0 (fun i => (headerWords 3 1 2 0).getD i 0) (headerOf 3 2 0)
    ∧ HeaderHolds s 0 (fun i => (headerWords 0 1 1 0x1000).getD i 0) (headerOf 0 1 0x1000)
    ∧ ∀ h, ¬ HeaderHolds s 0 (fun i => (headerWords 3 0 1 0).getD i 0) h := by
  refine ⟨?_, ?_, ?_, ?_, fun h hh => ?_⟩
  case refine_5 =>
    have hw := hh.2.2.2.2.2.2.2.2.2.2.2.2.2.2.2.2.2.1
    exact hh.2.2.1.2.2.2.2.1 (hw.trans (by decide))
  all_goals refine ⟨by decide, by decide, ⟨by decide, by decide, by decide, by decide, by decide, ?_⟩, ⟨by decide, fun h => absurd rfl h⟩, ?_⟩
  case refine_3.refine_1 => exact ⟨1, 0, by decide, by decide, h1, g1, by decide⟩
  all_goals first
    | exact ⟨0, 0, by decide, by decide, h0, g0, by decide⟩
    | decide

/-- A pointer that is misaligned and one that is not mapped; a header of weight 0; one of no index and one of 15 with context 2 the lowest free; one
of die 1 for a core of die 0; a dependant whose record a copy engine owns. -/
theorem wit_LaunchesStartAndComplete :
    (let th := thTask 0x1084 0; isOk (spaceOf (cxOf (working th []) th) 0 .load false 0x1084) = true ∧ (0x1084 : Word).toNat % 128 ≠ 0)
    ∧ (let th := thTask 0x900000000000 0
      isOk (spaceOf (cxOf (working th []) th) 0 .load false 0x900000000000) = true ∧ (0x900000000000 : Word).toNat % 128 = 0
      ∧ isTrap (loadWords (working th []) (cxOf (working th []) th) th.place.handle 0x900000000000 16) = true)
    ∧ ([(0, 1, 1, 0), (3, 1, 1, 0), (3, 1, 2, 0), (3, 0, 1, 0)] : List (Nat × Nat × Nat × Nat)).all (fun p =>
      readsHeader (launching p.1 p.2.1 p.2.2.1 p.2.2.2 []) (headerWords p.1 p.2.1 p.2.2.1 p.2.2.2)) = true
    ∧ ((launching 3 1 2 0 []).cluster 0).partId = 0 ∧ ((launching 3 1 2 0 []).cluster 36).partId = 0
    ∧ ((launching 3 1 2 0 []).cluster 0).retired = false ∧ ((launching 3 1 2 0 []).cluster 36).retired = false
    ∧ (headerOf 3 2 0).diemask.getLsbD (dieOfCore thLaunch.core) = false ∧ (headerOf 3 2 0).diemask.getLsbD 1 = true
    ∧ (headerOf 3 1 0).diemask.getLsbD (dieOfCore thLaunch.core) = true
    ∧ (headerOf 3 1 0).extents.foldl (fun x y => x * y) 1 = 15 ∧ (headerOf 0 1 0).extents.foldl (fun x y => x * y) 1 = 0
    ∧ (let s := owned (launching 0 1 1 0x1000 (record 0x1000 1 2 1 0 0 ++ tables))
      (readsHeader s (headerWords 0 1 1 0x1000)
        && completionHeld s { launch1 with csrs := tabled, hdr := headerOf 0 1 0x1000 }
        && !completionHeld s { launch1 with csrs := tabled, hdr := headerOf 0 1 0 }) = true)
    ∧ (let s := launching 3 1 1 0 []
      let e : DequeEntry := { kind := .range 0 15, entry := 0x400, arg := 0x55, x11 := 0x1080, wid := 0, widself := 0, prio := 0, mult := 1, lctx := 2 }
      let full := s.putCore 0 { s.core 0 with deque := List.replicate 64 e }
      readsHeader full (headerWords 3 1 1 0) = true ∧ isOk (pushDeque s 0 e) = true ∧ isOk (pushDeque full 0 e) = false)
    ∧ (let s := { launching 3 1 1 0 [] with launches := (List.range 4095).map (fun i => (i + 1, launch1)) }
      isOk (loadWords s (cxOf s thLaunch) 0 0x1080 16) = true ∧ (∀ n, n < 8 → s.launches.find (n + 1) ≠ none))
    ∧ (let th := { thTask 0 0 with wait := some (.yield 5) }
      let s := working th []
      s.current = some th ∧ hasReserved s 0 = false ∧ (∀ x ∈ (s.core 0).served, hasWork s 0 x.lctx = false) ∧ s.helben.dead = []) := by
  refine ⟨?_, ?_, ?_, ?_, ?_, ?_, ?_, ?_, ?_, ?_, ?_, ?_, ?_, ?_, ?_, ?_⟩ <;> decide +kernel

/-- The finished launch that completes at LAUNCH_COMPLETION, with the fields given. -/
def finished (events : Nat) (target dep : Word) (done : Bool) : State :=
  { working (thTask 0 0) (record 0x1000 1 2 1 0 0 ++ tables) with
    launches := [(1, { launch1 with done := done, csrs := tabled,
                                    hdr := { launch1.hdr with events := events, target := target, dep0 := dep, dep1 := 0 } })] }

/-- A launch that is not done, one that is to run again, and one whose dependant a copy engine owns; one of no event, one with a dependant whose
count it lowers, and one that posts to core 0. -/
theorem wit_LaunchesStartAndComplete_completion :
    ((finished 0 0 0 false).launches.find 1).map (fun l => l.done) = some false
    ∧ ((owned (finished 0 0 0x1000 true)).launches.find 1).map (completionHeld (owned (finished 0 0 0x1000 true))) = some true
    ∧ (∀ l, (finished 0 0 0 true).launches.find 1 = some l → l.done = true ∧ l.hdr.dep1 = 0 ∧ l.staged = [] ∧ l.events = [] ∧ l.hdr.events % 2 = 0
      ∧ l.hdr.dep0 = 0) ∧ (finished 0 0 0 true).helben.journal = []
    ∧ (let s := finished 0 0 0x1000 true
      ((s.launches.find 1).map (fun l => isOk (contOp s
        { cx := launchCx l (dieOfCore l.core), handle := handleOf l.core 0, core := l.lastCore, lctx := l.issuer } 0x1000 (-1)))) = some true ∧ (0x1000 : Word) ≠ 0)
    ∧ (let s := finished 1 0 0 true
      ((s.launches.find 1).map (fun l => l.hdr.events % 2 == 1 && l.hdr.dep0 == 0 && !l.hdr.target.getLsbD 63
        && decide ((l.hdr.target.extractLsb' 9 6).toNat < 36))) = some true
      ∧ (s.core (coreOfHandle 0)).mailbox.length < 32 ∧ (s.core (coreOfHandle 0)).held = []) := by
  refine ⟨?_, ?_, fun l hl => ?_, rfl, ?_, ?_⟩
  case refine_3 =>
    have h : ((finished 0 0 0 true).launches.find 1).map (fun l => (l.done, l.hdr.dep1, l.staged.isEmpty, l.events.isEmpty, l.hdr.events % 2, l.hdr.dep0))
      = some (true, 0, true, true, 0, 0) := by decide +kernel
    rw [hl] at h
    simpa using h
  all_goals decide +kernel

/-- A finished launch with two staged records, of which the second comes first; an atomic of each size at good data and at marked data; a merge of
good blocks. -/
theorem wit_LaunchesStartAndComplete_staged :
    (let x := { stagedOfAtom (atomOf 14 4 0x1004 true) with wid := 6 }
      let y := stagedOfAtom (atomOf 0 8 0x1008 true)
      let s := { finished 0 0 0 true with launches := [(1, { launch1 with done := true, staged := [x, y] })] }
      (s.launches.find 1).any (fun l => l.done && l.hdr.dep0 == 0 && l.hdr.dep1 == 0 && l.hdr.events % 2 == 0 && l.events.isEmpty
        && !completionHeld s l && l.staged.all (fun r => r.spill.isNone)) = true
      ∧ s.helben.journal = [] ∧ y.wid.toNat < x.wid.toNat)
    ∧ ((stm th0).isBad 0x1004 4 = false ∧ (marked (stm th0)).isBad 0x20008 8 = true ∧ (atomOf 14 4 0x1004 true).op < 15)
    ∧ (∀ b ∈ (mergeOf 0 true).blocks, (stm th0).isBad b 64 = false) := by
  refine ⟨?_, ?_, ?_⟩ <;> decide +kernel

/-! ### Mailboxes, barriers and channels -/

/-- A message of a slot. -/
def mail (slot : Nat) (a b : Word) : Mail := { slot := slot, m0 := a, m1 := b, copyOf := none }

/-- Core 0 with a mailbox and held postings; other threads beside thread 0, in cycle 1000. -/
def mailed (th : Thread) (box held : List Mail) (others : List (Nat × Thread)) : State :=
  { st th with threads := (0, th) :: others, cores := [(0, { core0 with mailbox := box, held := held })], cycle := 1000 }

/-- A handle of slot 36 of a cluster, the last of core 0 with room for one and with none, the own mailbox empty and with a message behind
another slot's; nobody who waits; a full mailbox with two waiting SENDs; a held posting of an instruction and one of a copy; threads that wait
for a message; the limits that have just ended, and a waiter for Helben. -/
theorem wit_MailboxesCarryMessagesInOrder :
    (let h : Word := 36 * 512;
      (mailed (user [h]) [] [] []).current = some (user [h]) ∧ ¬ (h.toNat < 2 ^ 17 ∧ h.toNat / 512 % 64 < 36)
      ∧ ¬ (2 ^ 17 : Nat) < 2 ^ 17)
    ∧ (let th := user [15, 9, 10]
      let s := mailed th (List.replicate 31 (mail 1 1 2)) [] []
      s.current = some th ∧ (th.getX 1).toNat < 2 ^ 17 ∧ (th.getX 1).toNat / 512 % 64 < 36 ∧ (s.core (coreOfHandle (th.getX 1).toNat)).retired = false
      ∧ (s.cluster (clusterOfCore (coreOfHandle (th.getX 1).toNat))).retired = false ∧ (s.core (coreOfHandle (th.getX 1).toNat)).mailbox.length < 32
      ∧ ((s.core th.core).mailbox.filter (fun m => m.slot == slotOfHandle th.place.handle)).length = 0)
    ∧ 32 ≤ ((mailed th0 (List.replicate 32 (mail 1 1 2)) [] []).core 0).mailbox.length
    ∧ (let s := mailed th0 [mail 1 1 2, mail 0 3 4] [mail 2 8 8, mail 3 9 9] []
      (s.core 0).mailbox = [mail 1 1 2] ++ mail 0 3 4 :: [] ∧ (mail 0 3 4).slot = slotOfHandle th0.place.handle
      ∧ (mail 1 1 2).slot ≠ slotOfHandle th0.place.handle ∧ (∀ p ∈ s.threads, p.2.wait = none)
      ∧ (s.core 0).held = mail 2 8 8 :: [mail 3 9 9] ∧ (s.core 0).mailbox.length < 32 ∧ (mail 2 8 8).copyOf = none ∧ (mail 2 8 8).slot < 16)
    ∧ (let w := fun (k : Nat) => ({ user [] with place := .slot k, wait := some (.send 5 8 9 7) } : Thread)
      let s := mailed th0 (List.replicate 31 (mail 1 1 2) ++ [mail 0 3 4]) [] [(1, w 1), (2, w 2)]
      s.current = some th0 ∧ (s.core 0).mailbox.length = 32 ∧ s.thread 1 = some (w 1) ∧ 1 ≠ s.cur ∧ coreOfHandle 5 = th0.core
      ∧ (w 1).place.handle < (w 2).place.handle ∧ rising s.threads)
    ∧ (let m := { mail 2 8 8 with copyOf := some { tid := 1, fifo := 0, last := true } }
      let x := { user [] with place := .slot 1, copies := 1 }
      let s := mailed th0 [] [m] [(1, x)]
      (s.core 0).held = m :: [] ∧ m.copyOf = some { tid := 1, fifo := 0, last := true } ∧ s.thread 1 = some x)
    ∧ ([Wait.recv 7, .waitm 7 none, .wfi 7 none []].all (fun w =>
      let x := { user [] with place := .slot 15, wait := some w }
      let s := mailed (user [15, 9, 10]) [] [] [(1, x)]
      s.thread 1 == some x && x.place.handle == handleOf 0 15)) = true
    ∧ (let w := { user [] with place := .slot 2, wait := some (.waitm 7 (some 1000)) }
      let f := { user [] with place := .slot 3, wait := some (.wfi 7 (some 1000) []) }
      let s := mailed th0 [] [] [(1, w), (2, f)]
      s.thread 1 = some w ∧ s.thread 2 = some f ∧ 1000 ≤ s.cycle ∧ s.inSlot 3 = some (2, f) ∧ rising s.threads)
    ∧ (let f := { user [] with place := .slot 3, wait := some (.wfi 7 none [3, 2]) }
      let s := mailed th0 [] [] [(2, f)]
      s.thread 2 = some f ∧ (s.cluster (clusterOfCore f.core)).doorbell = false ∧ (2 ∈ [3, 2] ∧ ∀ y ∈ [3, 2], 2 ≤ y)
      ∧ ((s.putCluster 0 { Cluster.reset with doorbell := true }).cluster (clusterOfCore f.core)).doorbell = true ∧ (∀ y ∈ [3, 2], 1 ≤ y)) := by
  refine ⟨⟨rfl, ?_⟩, ⟨rfl, ?_⟩, ?_, ⟨rfl, ?_⟩, ⟨rfl, ?_, rfl, ?_, ?_, ?_, ?_⟩, ⟨rfl, rfl, rfl⟩, ?_, ⟨rfl, rfl, ?_⟩, ⟨rfl, ?_⟩⟩
  · decide
  · decide +kernel
  · decide +kernel
  · decide +kernel
  · decide +kernel
  · decide
  · decide
  · decide
  · simp [mailed, rising]
  · decide +kernel
  · refine ⟨by decide, by decide +kernel, by simp [mailed, rising]⟩
  · decide +kernel

/-- A barrier of cluster 0. -/
def barrier (n arrived : Nat) (pending : Int) (parity : Bool) (flags : BitVec 5) : Barrier :=
  { n := n, e0 := 6, c := 0x1F, parity := parity, arrived := arrived, pending := pending, flags := flags, lowest := none, last := 3 }

def barred (th : Thread) (b : Barrier) (others : List (Nat × Thread)) : State :=
  ({ st th with threads := (0, th) :: others } : State).putBarrier 0 2 b

/-- A multiplicity of 3 at barrier 2: x1 names it, x2 is a token of parity 1. -/
def thBar : Thread := { user [2, 1] with mult := 3, fflags := 5 }

/-- The same as a supervisor that configures it. -/
def thCfg : Thread := sup (user [0x700000002, 0x900000008])

/-- N = 0; the last arrival that fits and the first that does not; a token of either parity; BARCFG in user mode, with a reserved bit, of a
barrier in use and of an idle one; a phase that cannot and one that can end, with two waiters of which the second collects its flags; an amount of
bytes. -/
theorem wit_BarriersCountTheirPhases :
    (barred thBar (barrier 0 0 6 false 0) []).current = some thBar ∧ ((barred thBar (barrier 0 0 6 false 0) []).barrier 0 2).n = 0
    ∧ (let br := (barred thBar (barrier 8 5 6 true 2) []).barrier 0 2; br.n ≠ 0 ∧ br.arrived + thBar.mult.toNat ≤ br.n
      ∧ (thBar.getX 2).getLsbD 0 = br.parity)
    ∧ (let br := (barred thBar (barrier 8 6 6 false 2) []).barrier 0 2; br.n < br.arrived + thBar.mult.toNat ∧ (thBar.getX 2).getLsbD 0 ≠ br.parity)
    ∧ thBar.mode = .user ∧ thCfg.mode = .supervisor ∧ (thCfg.getX 1).extractLsb' 4 28 = 0 ∧ (thCfg.getX 2).extractLsb' 37 27 = 0
    ∧ ((0x10 : Word).extractLsb' 4 28 ≠ 0)
    ∧ (let s := barred thCfg (barrier 8 0 6 false 0) []
      s.current = some thCfg ∧ (s.barrier 0 2).arrived = 0 ∧ (s.barrier 0 2).pending = (s.barrier 0 2).e0
      ∧ ∀ p ∈ s.threads, waitsOnBarrier p.2 0 2 = false)
    ∧ ((barred thCfg (barrier 8 1 6 false 0) []).barrier 0 2).arrived ≠ 0
    ∧ ((barred th0 (barrier 8 8 1 false 0) []).barrier 0 2).pending ≠ 0
    ∧ (let w := fun (k : Nat) => ({ user [] with place := .slot k, wait := some (.barw 7 0 2 false) } : Thread)
      let s := barred th0 { barrier 8 8 0 false 9 with lowest := some (0, 2, 2) } [(1, w 1), (2, w 2)]
      let x := s.barrier 0 2
      x.n ≠ 0 ∧ x.arrived = x.n ∧ x.pending = 0 ∧ x.flags ≠ 0 ∧ s.thread 1 = some (w 1) ∧ s.thread 2 = some (w 2)
      ∧ (w 2).wait = some (.barw 7 0 2 x.parity) ∧ x.lowest = some (0, 2, 2)
      ∧ (∀ p ∈ s.threads, p.2.wait ≠ some (.barex 7 0 2 4)) ∧ s.threads.map (fun p => p.1) = [0, 1, 2])
    ∧ (let w := { user [] with wait := some (.barex 7 0 2 4) }
      let s := barred w (barrier 8 7 (-2) false 0) []
      s.threads = [(0, w)] ∧ (s.barrier 0 2).arrived ≠ (s.barrier 0 2).n) := by
  refine ⟨rfl, ?_, ?_, ?_, rfl, rfl, ?_, ?_, ?_, ⟨rfl, ?_⟩, ?_, ?_, ?_, rfl, ?_⟩ <;> decide +kernel

/-- A channel of stages of 512 bytes. -/
def chan (w : Writer) (r : Option Nat) (l : List Stage) (wn rn : Nat) (wh rh : Option Nat) : Channel :=
  { size := 3, writer := w, reader := r, stages := l, wn := wn, rn := rn, wheld := wh, rheld := rh }

/-- Thread 0 at bank 5, a channel; x1 is its pointer. -/
def thChan (w : Word) : Thread := user [0x10000000000A0000, w]

def channel (c : Channel) : State := (st (thChan 0)).putBank 5 { Bank.reset with mode := .fifo c }

/-- The channel is the thread's operand, and passes a test. -/
def chanIs (c : Channel) (p : Channel → Bool) : Bool :=
  (channel c).current == some (thChan 0) && holds (channelOf (channel c) (thChan 0) ((thChan 0).getX 1)) (fun r => r.1 == 5 && r.2 == c && p r.2)

/-- A state in which bank 5 is to change its mode. -/
def modeChange (m : BankMode) (w : Word) : State :=
  ({ st { user [] with wait := some (.bankcfg 7 5) } with sram := words [(0x9FFF8, 0x1122334455667788), (0xBFFF8, 0x1122334455667788)] } : State).putBank 5
    { Bank.reset with mode := m, changes := [{ word := w, tid := 0, seq := 4 }], cfg := 1 }

/-- A thread that waits for a stage of bank 5 beside thread 0. -/
def queuing (c : Channel) (w : Wait) : State :=
  { channel c with threads := [(0, thChan 0), (1, { user [] with place := .slot 1, wait := some w })], nextTid := 2 }

/-- The next stage free and published, neither of them; the own stages held, with nobody and with a thread that waits for the stage; another
thread's; the modes that BANKCFG asks for by a holder and by another, a field at its bound and one beyond; changes from CACHE and from SCRATCH. -/
theorem wit_ChannelsAndBankModesChange :
    chanIs (chan .unbound none [.free, .published, .free] 0 1 none none) (fun c => c.stages[c.wn]? == some .free && c.stages[c.rn]? == some .published) = true
    ∧ chanIs (chan (.thread 0) (some 0) [.free, .published, .free] 1 0 none none)
      (fun c => c.stages[c.wn]? != some .free && c.stages[c.rn]? != some .published) = true
    ∧ chanIs (chan (.thread 0) (some 0) [.reserved, .acquired] 1 0 (some 0) (some 1)) (fun c => c.wheld == some 0 && c.rheld == some 1) = true
    ∧ chanIs (chan (.thread 1) (some 2) [.reserved, .acquired] 0 0 none none) (fun c => c.writer != .thread 0 && c.reader != some 0) = true
    ∧ (∀ p ∈ (channel (chan .unbound none [] 0 0 none none)).threads, p.2.wait = none)
    ∧ (let c := chan (.thread 0) (some 1) [.reserved, .free] 1 0 (some 0) none
      let x := { user [] with place := .slot 1, wait := some (.qacq 7 5 0x10000000000A0000) }
      let s := queuing c (.qacq 7 5 0x10000000000A0000)
      c.wheld = some 0 ∧ c.writer = .thread 0 ∧ c.stages[0]? ≠ none ∧ c.rn = 0 ∧ s.thread 1 = some x ∧ 1 ≠ s.cur ∧ s.current = some (thChan 0))
    ∧ (let c := chan (.thread 1) (some 0) [.published, .acquired] 1 0 none (some 1)
      let x := { user [] with place := .slot 1, wait := some (.qres 7 5 0x10000000000A0000) }
      let s := queuing c (.qres 7 5 0x10000000000A0000)
      c.rheld = some 1 ∧ c.reader = some 0 ∧ c.stages[1]? ≠ none ∧ c.wn = 1 ∧ s.thread 1 = some x ∧ 1 ≠ s.cur ∧ s.current = some (thChan 0))
    ∧ (∃ sp, spaceOf { cxOf (st (thChan 1)) (thChan 1) with mode := .supervisor } 0 .load false ((thChan 1).getX 1) = .ok sp ∧ (sp == .bank 0 5 0 0) = true)
    ∧ (sup (thChan 1)).mode = .supervisor ∧ (thChan 1).mode = .user ∧ (st (thChan 1)).launches = []
    ∧ (let w : Word := 0x06A; w.extractLsb' 14 50 = 0 ∧ w.extractLsb' 0 2 = 2 ∧ (w.extractLsb' 2 4).toNat ≤ 10
      ∧ ((w.extractLsb' 6 6).toNat + 1) * (64 * 2 ^ (w.extractLsb' 2 4).toNat) ≤ 131072)
    ∧ (let w : Word := 0x0AA; ¬ ((w.extractLsb' 6 6).toNat + 1) * (64 * 2 ^ (w.extractLsb' 2 4).toNat) ≤ 131072)
    ∧ [(BankMode.cache, (0 : Word)), (.cache, 0x308E), (.cache, 3), (.scratch, 1)].all (fun p =>
      let s := modeChange p.1 p.2
      (s.bank 5).changes == [{ word := p.2, tid := 0, seq := 4 }] && ((s.bank 5).mode == .cache || ((s.bank 5).mode == .scratch && p.2.extractLsb' 0 2 == 1))
        && s.clusters.all (fun q => q.2.jobs.isEmpty) && s.threads.all (fun q => q.2.head.isNone && q.2.wait == some (.bankcfg 7 5) && q.2.place == .slot 0)
        && s.threads.map (fun q => q.1) == [0] && s.late.isEmpty) = true := by
  refine ⟨?_, ?_, ?_, ?_, ?_, ⟨?_, ?_, ?_, ?_, rfl, ?_, rfl⟩, ⟨?_, ?_, ?_, ?_, rfl, ?_, rfl⟩, ok_with ?_, rfl, rfl, rfl, ?_, ?_, ?_⟩ <;> decide +kernel

/-! ### The copy engine -/

/-- A request of thread 0, whose context has a page table. -/
def copyOf (w0 w1 w2 w3 : Word) : CopyReq :=
  { tid := 0, home := 0, fifo := 0, lctx := 0, w0 := w0, w1 := w1, w2 := w2, w3 := w3, mode := .user, csrs := { CtxCsrs.reset with ptbase := 0x100000 }, privbase := 0 }

/-- The tile descriptor at 0x3000: bank 3 at 0x100, extent (3, 2, 1, 1), shape (4, 2, 1, 1), elements of 2 bytes, 2 iterations along dimension 1. -/
def tileWords : List (Nat × Nat) :=
  [(0x3000, 2 ^ 60 + 3 * 0x20000 + 0x100), (0x3008, 3 + 2 * 2 ^ 32), (0x3010, 1 + 2 ^ 32), (0x3018, 8), (0x3020, 2 * 2 ^ 32 + 2 ^ 40 + 2 * 2 ^ 48),
   (0x3028, 4 + 2 * 2 ^ 16 + 2 ^ 32 + 2 ^ 48), (0x3030, 0xABCD), (0x3038, 1)]

/-- Banks 3 and 4 are SCRATCH, the request heads the FIFO of core 0 and its thread waits. -/
def copying (r : CopyReq) : State :=
  ((({ st { th0 with wait := some (.copy 7 none) } with
      mem := words ([(0x100000, 0x110001), (0x110000, 0x120001), (0x120000, 0xDF)] ++ tileWords),
      cores := [(0, { core0 with fifo := [r] })], seq := 4 } : State).putBank 3 { Bank.reset with mode := .scratch }).putBank 4
    { Bank.reset with mode := .scratch })

/-- LINEAR, TILE, TILE of several iterations and FILL, each to offset 0x40 of bank 4. -/
def kinds : List CopyReq := [copyOf (inBank 3 0x100) (inBank 4 0x40) 24 0, copyOf 0x3000 (inBank 4 0x40) 0 1, copyOf 0x3000 (inBank 4 0x40) 0 2,
  copyOf 0x1122334455667788 (inBank 4 0x40) 11 3]

/-- A request that passes its checks, as a job of cluster 0. -/
def jobOf (r : CopyReq) (desc : List Word) (banks : List Nat) : CopyJob :=
  let bare : CopyJob := { req := r, seq := 3, desc := desc, banks := banks, iter := 0, owned := [] }
  { bare with owned := ownAll (copying r) bare }

/-- Whether the job's sources are all in banks. -/
def fromBanks (j : CopyJob) : Bool :=
  j.plan.all (fun p => match p.1 with
    | some q => holds (spaceOf j.req.cx j.req.cluster .load false q) (fun sp => match sp with
      | .bank _ _ _ _ => true
      | _ => false)
    | none => true)

/-- A CPYT that is misaligned, one through a CONTROL pointer, one that reads its words and one that meets a marked word. -/
def thCpyt : Thread := user [0x3020, 0x3008, 2 ^ 64 - 2 ^ 60]

/-- A CPYT of an L page, whose first word has a tag. -/
def cpytOf (tag : Nat) : State :=
  { one (user [0x20000]) [] with tags := [(0x20000 / 8, tag)], evals := [(0x20000, { serial := 1, waitsOn := none, waiters := [] })] }

/-- A FIFO with room for one and a full one; the forms of CPYT, one whose word is FAILED and one whose word is EVALUATING among them; each kind
accepted, one refused, one for a retired cluster. -/
theorem wit_CopiesMoveTheirBytes :
    (let s := (st th0).putCore 0 { core0 with fifo := List.replicate 15 (copyOf 0 0 0 0) };
      tidy s && s.current == some th0 && decide ((s.core 0).fifo.length < 16)) = true
    ∧ 16 ≤ (((st th0).putCore 0 { core0 with fifo := List.replicate 16 (copyOf 0 0 0 0) }).core 0).fifo.length
    ∧ thCpyt.mode = .user ∧ (thCpyt.getX 3).extractLsb' 60 4 = 15 ∧ (thCpyt.getX 1).extractLsb' 60 4 ≠ 15
    ∧ (thCpyt.getX 2).extractLsb' 60 4 ≠ 15 ∧ (thCpyt.getX 2).toNat % 32 ≠ 0 ∧ (thCpyt.getX 1).toNat % 32 = 0
    ∧ (let s := ({ st thCpyt with mem := words tileWords } : State)
      holds (loadTags s thCpyt (thCpyt.getX 1) 4) (fun x => x.isNone) && isOk (loadWords s (cxOf s thCpyt) thCpyt.place.handle (thCpyt.getX 1) 4)) = true
    ∧ (let s := ({ st thCpyt with bad := [(0x3038 / 32, (-1 : BitVec 32))] } : State)
      holds (loadTags s thCpyt (thCpyt.getX 1) 4) (fun x => x.isNone) && isTrap (loadWords s (cxOf s thCpyt) thCpyt.place.handle (thCpyt.getX 1) 4)) = true
    ∧ isTrap (loadTags (cpytOf 3) (user [0x20000]) 0x20000 4) = true
    ∧ holds (loadTags (cpytOf 2) (user [0x20000]) 0x20000 4) (fun x => x.isSome) = true
    ∧ kinds.all (fun r => let s := copying r
      tidy s && (s.core 0).fifo == [r] && s.thread r.tid == some { th0 with wait := some (.copy 7 none) } && s.helben.halts.isEmpty
        && s.threads.map (fun p => p.1) == [0] && s.cores.map (fun p => p.1) == [0] && decide ((s.cluster 0).jobs.length < 64)
        && !(s.cluster 0).retired && holds (checkRequest s r) (fun d =>
          (List.range (r.iterations d.1)).all (fun i => !destWaits s { req := r, seq := 4, desc := d.1, banks := d.2, iter := 0, owned := [] } i))) = true
    ∧ isTrap (checkRequest (copying (copyOf 1 (inBank 5 0x40) 11 3)) (copyOf 1 (inBank 5 0x40) 11 3)) = true
    ∧ (let s := copying (copyOf 0 0 0 0); (s.putCluster 0 { s.cluster 0 with retired := true }).cluster 0 |>.retired) = true := by
  refine ⟨?_, ?_, rfl, ?_, ?_, ?_, ?_, ?_, ?_, ?_, ?_, ?_, ?_, ?_, ?_⟩ <;> decide +kernel

/-- A LINEAR copy to DRAM whose page-table entry lies in a line that an earlier request owns, so that its destination waits. -/
def blocked : State :=
  let r := copyOf (inBank 3 0x100) 0x2000 24 0
  let s := copying r
  s.putCluster 0 { s.cluster 0 with jobs := [{ req := r, seq := 1, desc := [], banks := [], iter := 0,
                                               owned := [{ iter := 0, dram := true, start := 0x120000, len := 32 }] }] }

/-- The job of a request as it is before it owns a line. -/
def bareOf (r : CopyReq) (banks : List Nat) : CopyJob := { req := r, seq := 3, desc := [], banks := banks, iter := 0, owned := [] }

/-- A destination that waits; what a LINEAR copy to a bank and to DRAM owns; an engine's access of a bank of its request, of REMOTE space and of
GLOBAL space. -/
theorem wit_CopiesMoveTheirBytes_lines :
    (let r := copyOf (inBank 3 0x100) 0x2000 24 0;
      holds (checkRequest blocked r) (fun d => destWaits blocked { req := r, seq := 4, desc := d.1, banks := d.2, iter := 0, owned := [] } 0
        && decide (0 < r.iterations d.1)) = true)
    ∧ (let r := copyOf (inBank 3 0x100) (inBank 4 0x40) 24 0
      let j := bareOf r [];
      (r.w3.extractLsb' 4 2 ≠ 3 ∧ r.mask = 0 ∧ r.kind ≠ 2 ∧ r.bytes j.desc = 24)
      ∧ holds (copyAcc (copying r) (bareOf r [3, 4]) .store r.w1) (fun a => a.loc == .bank (4 * 131072 + 0x40)) = true)
    ∧ (let r := copyOf (inBank 3 0x100) 0xFFE8 24 0
      holds (copyAcc (copying r) (bareOf r [3]) .store 0xFFE8) (fun a => a.loc == .dram 0xFFE8) = true ∧ 0xFFE8 % 65536 + 24 ≤ 65536)
    ∧ (let r := copyOf (inBank 3 0x100) (inBank 4 0x40) 24 0
      let j := bareOf r [3, 4]
      let sp := fun (q : Word) => spaceOf j.req.cx j.req.cluster .load false q
      holds (sp (inBank 3 0)) (fun x => x == .bank 0 3 0 0) = true ∧ 0 * 32 + 3 ∈ j.banks ∧ watched (copying r) (coreOfHandle j.req.home) (inBank 3 0) 1 = false
      ∧ holds (sp 0x4030000000000000) (fun x => match x with | .remote _ _ => true | _ => false) = true
      ∧ holds (sp 0x5678) (fun x => match x with | .global _ => true | _ => false) = true) := by
  refine ⟨?_, ?_, ?_, ?_⟩ <;> decide +kernel

/-- A state with one job of cluster 0, and nothing that could hold it. -/
def moving (j : CopyJob) (s : State) : State := s.putCluster 0 { s.cluster 0 with jobs := [j] }
def readyFor (j : CopyJob) (s : State) : Bool :=
  (s.cluster 0).jobs == [j] && s.clusters.map (fun p => p.1) == [0] && decide (j.req.kind ≤ 3) && s.badSram.isEmpty && s.helben.watch.isEmpty
    && j.banks.all (fun m => !portBusy s m && (s.bank m).engines.isEmpty) && s.cores.all (fun c => c.2.held.all (fun m => m.copyOf.isNone))

/-- Each kind moves from banks to a bank; a multicast to banks 4 and 5; a LINEAR copy that is published to the stages of two channels. -/
theorem wit_CopiesMoveTheirBytes_moves :
    kinds.all (fun r => holds (checkRequest (copying r) r) (fun d => let j := jobOf r d.1 d.2
      let s := moving j (copying r)
      readyFor j s && r.w3.extractLsb' 4 2 == 0 && r.mask == 0 && j.groupBanks.length == r.group
        && holds (spaceOf r.cx r.cluster .store false r.w1) (fun sp => sp == .bank 0 4 0x40 0) && decide (0x40 + r.bytes j.desc ≤ 2 ^ 17)
        && j.banks.contains 4 && fromBanks j
        && (r.kind == 0 || r.kind == 3 || ((tensorOf j.desc).size == 2 && (tensorOf j.desc).shape == [4, 2, 1, 1]
          && (tensorOf j.desc).extent == [3, 2, 1, 1])))) = true
    ∧ (let r := copyOf 0x1122334455667788 (inBank 4 0x40) 11 (3 + 0x3 * 2 ^ 32)
      let s0 := (copying r).putBank 5 { Bank.reset with mode := .scratch }
      holds (checkRequest s0 r) (fun d => let j := jobOf r d.1 d.2
        readyFor j (moving j s0) && r.group == 2 && j.groupBanks.length == 2
          && (List.range 2).all (fun g => holds (spaceOf r.cx r.cluster .store false (r.w1 + BitVec.ofNat 64 (g * 131072)))
            (fun sp => sp == .bank 0 (4 + g) 0x40 0 && j.banks.contains (4 + g))))) = true
    ∧ (let r := copyOf (inBank 3 0x100) (inBank 4 0) 64 (3 * 16 + 4 * 1024 + 0x3 * 2 ^ 32)
      let ch := chan .copyEngine none [.free, .free] 1 0 none none
      let s0 := ((copying r).putBank 4 { Bank.reset with mode := .fifo ch }).putBank 5 { Bank.reset with mode := .fifo ch }
      holds (checkRequest s0 r) (fun d => let j := jobOf r d.1 d.2
        readyFor j (moving j s0) && j.groupBanks == [4, 5] && r.group == 2 && ch.stages[ch.wn]? == some .free && decide (64 ≤ 64 * 2 ^ ch.size)
          && decide ((ch.wn + 1) * (64 * 2 ^ ch.size) ≤ 131072) && j.eligible (moving j s0) 0)) = true := by
  refine ⟨?_, ?_, ?_⟩ <;> decide +kernel

/-- A source byte that no table maps, and one of a word that is not VALUE; a destination that no table maps; a destination that leaves its bank after
16 bytes. -/
theorem wit_CopiesMoveTheirBytes_faults :
    (let r := copyOf 0x90000 (inBank 4 0x40) 24 0
      let j := bareOf r [4]
      let s := moving j (copying r)
      (readyFor j s && j.eligible s 0 && j.plan[0]? == some (some 0x90000, 0) && isTrap (copyAcc s j .load 0x90000)) = true)
    ∧ (let r := copyOf (inBank 3 0x1FFF0) 0x90000 24 0
      let j := bareOf r [3]
      let s := moving j (copying r)
      (readyFor j s && j.eligible s 0 && isTrap (copyAcc s j .store (r.w1 + BitVec.ofNat 64 (0 * 24)))) = true)
    ∧ (let r := copyOf (inBank 3 0x100) (inBank 4 0x1FFF0) 24 0
      let j := bareOf r [3, 4]
      let s := moving j (copying r)
      (readyFor j s && j.eligible s 0 && fromBanks j && holds (spaceOf r.cx r.cluster .store false r.w1) (fun sp => sp == .bank 0 4 0x1FFF0 0)) = true
      ∧ 16 < r.bytes j.desc ∧ 0x1FFF0 + 0 * 24 + 16 ≤ 131072
      ∧ isTrap (copyAcc s j .store (r.w1 + BitVec.ofNat 64 (0 * 24) + BitVec.ofNat 64 16)) = true) := by
  refine ⟨?_, ?_, ?_, ?_, ?_, ?_⟩ <;> decide +kernel

/-- The refusal of that byte does not depend on what the banks hold. -/
theorem wit_CopiesMoveTheirBytes_end (m : Memory) :
    let r := copyOf (inBank 3 0x100) (inBank 4 0x1FFF0) 24 0
    let j := bareOf r [3, 4]
    ∃ e, copyAcc { moving j (copying r) with sram := m } j .store (r.w1 + BitVec.ofNat 64 (0 * 24) + BitVec.ofNat 64 16) = .error e := by
  exact ⟨_, rfl⟩

/-- The signals: none, a message with a free mailbox, with a held posting and with a full one, the barrier's bytes, stages published, and a
fault that the request asks for, of a thread that is there and of one that is gone. -/
theorem wit_CopiesMoveTheirBytes_signals :
    (let w3 := fun (sig fault : Nat) => (BitVec.ofNat 64 (3 + sig * 16 + fault * 2 ^ 15) : Word);
      ((w3 0 0).extractLsb' 4 2 = 0 ∧ (w3 1 0).extractLsb' 4 2 = 1 ∧ (w3 2 0).extractLsb' 4 2 = 2 ∧ (w3 3 0).extractLsb' 4 2 = 3)
      ∧ (w3 3 0).getLsbD 15 = false ∧ (w3 3 1).getLsbD 15 = true)
    ∧ ((st th0).core (coreOfHandle 0)).mailbox.length < 32 ∧ ((st th0).core (coreOfHandle 0)).held = [] ∧ (st th0).thread 0 = some th0
    ∧ (st th0).thread 9 = none ∧ 32 ≤ ((mailed th0 (List.replicate 32 (mail 1 1 2)) [] []).core 0).mailbox.length
    ∧ ((mailed th0 [] [mail 2 8 8] []).core 0).held ≠ []
    ∧ (let s := channel (chan .copyEngine none [.free, .free] 1 0 none none)
      [5].Nodup ∧ (∀ p ∈ s.threads, p.2.wait = none) ∧ (s.bank 5).mode = .fifo (chan .copyEngine none [.free, .free] 1 0 none none)) := by
  refine ⟨?_, ?_, ?_, rfl, rfl, ?_, ?_, ?_, ?_, ?_⟩ <;> decide +kernel

/-! ### Events of threads and of the schedule -/

/-- A trap. -/
def trapOf (c : Cause) (v : Word) : Trap := { cause := c, val := v }

/-- A context with a page table: page 0 for all, page 2 an L page with a SUSPENDED cell of the thunk record at 0x1040. -/
def paged (th : Thread) (cycle : Nat) : State :=
  { st th with
    cycle := cycle, tags := [(0x20008 / 8, 1)],
    mem := words [(0x400, 0x1122334455667788), (0x1040, 0x404), (0x1048, 0x99), (0x1060, 0x33 * 2 ^ 32), (0x20008, 0x1040), (0x100000, 0x110001),
      (0x110000, 0x120001), (0x120000, 0x1F), (0x120010, 0x2021F)],
    cores := [(0, { core0 with tlb := [], wdog := 3, served :=
      [{ lctx := 0, idx := 0, csrs := { CtxCsrs.reset with tvec := 0x4000, ptbase := 0x100000 }, deficit := 0, starved := 0 }] })] }

/-- A load of another package, whose link was reset in cycle 4 and whose partition is halted since cycle 5, 2^20 cycles on. -/
def thRemote : Thread := headed th0 (.load 5 8 false 0x55 (.remote 3 0x88) false)
def cut : State :=
  { paged thRemote (2 ^ 20 + 5) with
    fabric := { State.reset.fabric with live := [0, 1, 2, 3], resetAt := [(2, [4])] },
    helben := { State.reset.helben with halts := [(0, { stop := false, reason := 0, since := 5 })] } }

/-- A load of the SUSPENDED cell. -/
def thCell : Thread := headed th0 (.load 5 8 false 0x20008 (.dram 0x20008) true)

/-- Whether the cell's thunk can be pushed. -/
def pushesThunk (s : State) (th : Thread) : Bool :=
  holds (loadWords s (cxOf s th) th.place.handle 0x1040 8) (fun r =>
    let w := thunkCore r.2 th r.1 0x20008
    let keep : Keep := if w.2 = false then .no
      else if (cachedOn r.2 th.core).length < 8 ∨ freeSpill r.2 th.core ≠ none then .slot (slotOfHandle th.place.handle) else .first
    thunkRecordOk r.1 && !wordsTagged r.2 (cxOf s th) th.place.handle 0x1040 8 && isOk (chargeAndPush r.2 (dieOfCore th.core) w.1
      { kind := .thunk 0x20008 0x20008 r.2.seq keep, entry := r.1.getD 0 0, arg := r.1.getD 1 0, x11 := 0x1040, wid := th.wid, widself := th.widself,
        prio := ((r.1.getD 4 0).extractLsb' 36 4).toNat, mult := 1, lctx := th.lctx.toNat,
        record := r.1 }))

/-- Four pending traps, MACHINE_CHECK first and one the phase's own; a trap alone; one that is owed; a TRAPPING period and a divide in their last cycle and before it; a walk; a fetch that is made and
one that traps; the watchdog one rotation beyond its limit, with and without a wait; both timeouts; a cell to evaluate, and one without a
translation of its record. -/
theorem wit_ThreadEventsTakeEffect :
    (let th := { th0 with pending := [trapOf .watchdog 1, trapOf .machineCheck 3, trapOf .barrierFpCollected 4, trapOf .debugStep 2] };
      (st th).thread 0 = some th ∧ th.place = .slot 0 ∧ th.head = none ∧ th.wait = none ∧ th.trapUntil = none ∧ th.redo = none ∧ th.owed = none
      ∧ ((st th).core 0).retired = false ∧ trapOf .machineCheck 3 ∈ th.pending
      ∧ (∀ x ∈ th.pending, x ≠ trapOf .machineCheck 3 → (trapOf .machineCheck 3).cause.rank < x.cause.rank) ∧ (trapOf .machineCheck 3).cause.rank < 5)
    ∧ (let th := { th0 with pending := [trapOf .barrierFpCollected 4] };
      (∀ x ∈ th.pending, x ≠ trapOf .barrierFpCollected 4 → (trapOf .barrierFpCollected 4).cause.rank < x.cause.rank)
      ∧ 5 ≤ (trapOf .barrierFpCollected 4).cause.rank)
    ∧ (let th := { th0 with owed := some (th0.pc, trapOf .barrierFpCollected 4) };
      (st th).thread 0 = some th ∧ th.pending = [] ∧ th.owed = some (th.pc, trapOf .barrierFpCollected 4))
    ∧ ((100 ≤ (paged th0 100).cycle) ∧ (paged th0 99).cycle < 100
      ∧ (headed th0 (.div 5 77 100)).head = some (headOf (.div 5 77 100)))
    ∧ (holds (walkHit (paged th0 0) (cxOf (paged th0 0) th0) .store 0x1000 0x1000) (fun h => h.entry.pa 0x1000 == 0x1000)
      && holds (fetch (paged th0 0) th0) (fun r => decide (((touch (paged th0 0) (some 0) .fetch r.hit).core 0).icache.length < 512))) = true
    ∧ isTrap (fetch (paged { th0 with pc := 0x900000000000 } 0) { th0 with pc := 0x900000000000 }) = true
    ∧ (let th := { th0 with wait := some (.recv 5) };
      let s := paged th 64; s.thread 0 = some th
        ∧ (s.core 0).wdog.toNat ≠ 0 ∧ (s.core 0).wdog.toNat < s.cycle / 16 - th.lastRetire ∧ s.helben.halts = [] ∧ th.pending = [] ∧ th0.wait = none)
    ∧ (cut.thread 0 = some thRemote ∧ thRemote.head = some (headOf (.load 5 8 false 0x55 (.remote 3 0x88) false))
      ∧ cut.fabric.resetAt = [(2, [4])] ∧ 4 ∈ [4] ∧ linkServes cut.fabric 2 3 = true ∧ 0 ≤ 4 ∧ 4 + 2 ^ 20 ≤ cut.cycle
      ∧ cut.helben.halts.find (cut.cluster 0).partId = some { stop := false, reason := 0, since := 5 } ∧ 5 + 2 ^ 20 ≤ cut.cycle)
    ∧ (let s := paged thCell 0
      (suspendedAccess s thCell).map (fun p => (p.1, p.2.1)) = some (0x20008, 0x20008) ∧ thCell.evalOf = none ∧ sliceHasRoom s 0x20008 2 = true
      ∧ BitVec.ofNat 64 (s.mem.readLE 0x20008 8) = (0x1040 : Word) ∧ (0x1040 : Word).extractLsb' 60 4 = 0 ∧ (0x1040 : Word).extractLsb' 52 4 = 0
      ∧ (0x1040 : Word).toNat % 64 = 0 ∧ 0x20008 % 8 = 0 ∧ rising s.threads ∧ pushesThunk s thCell = true)
    ∧ (let s := { paged thCell 0 with mem := (paged thCell 0).mem.writeLE 0x20008 8 0x900000000040 };
      (suspendedAccess s thCell).isSome = true
        ∧ isTrap (startEvaluation s 0 0x20008 0x20008 (.load 5 0 8 false)) = true) := by
  refine ⟨⟨rfl, rfl, rfl, rfl, rfl, rfl, rfl, ?_⟩, ?_, ⟨rfl, rfl, rfl⟩, ⟨?_, ?_, rfl⟩, ?_, ?_, ⟨rfl, ?_⟩, ⟨rfl, rfl, rfl, ?_⟩,
    ⟨?_, rfl, ?_, ?_, ?_, ?_, ?_, ?_, ?_, ?_⟩, ?_⟩
  case refine_16 => simp [paged, st, one, rising]
  all_goals decide +kernel

/-- A record in a deque. -/
def queued (k : EntryKind) (lctx : Nat) : DequeEntry :=
  { kind := k, entry := 0x400, arg := 5, x11 := 6, wid := 7, widself := 8, prio := 0, mult := 3, lctx := lctx }

/-- Cores 0 and 1 in rotation 10, the deque of core 1 given. -/
def thief (deque : List DequeEntry) : State :=
  { State.reset with cores := [(0, { Core.reset with asked := 3 }), (1, { Core.reset with deque := deque, victim := 3 })], cycle := 160, rot := 10,
                     launches := [(1, launch1)], nextTid := 7 }

/-- Thread 0 of a core that has an entry to give. -/
def gives (deque : List DequeEntry) : Option (Nat × DequeEntry) :=
  (givenEntry (thief deque) 0 1).bind (fun i => ((thief deque).core 1).deque[i]?.map (fun e => (i, e)))

/-- A context starved for 64 rotations beside fourteen threads of another. -/
def starving : State :=
  { thief [] with
    threads := (List.range 14).map (fun k => (k, { user [] with place := .slot k, lctx := 1, bound := k })),
    cores := [(0, { Core.reset with deque := [queued .task 0], served :=
      [{ lctx := 0, idx := 0, csrs := CtxCsrs.reset, deficit := 0, starved := 64 }, { lctx := 1, idx := 1, csrs := CtxCsrs.reset, deficit := 0, starved := 0 }] })] }

/-- A boundary to come and one that is due, with a record for the last core; a victim with nothing, a range of two, a range of one and a task;
a record in the spill region; a context that starves; a thread to be pre-empted, without a wait and with each that pre-emption withdraws, for a context that starves; a core with
one thread. -/
theorem wit_SchedulingEventsMoveThreads :
    (let s := { State.reset with cores := [(4607, { Core.reset with deque := [queued .task 1] })], cycle := 160, rot := 10, launches := [(1, launch1)] };
      s.rot ≤ s.cycle / 16 ∧ s.threads = [] ∧ (s.core 4607).served = [] ∧ engineRuns s 4607 = true ∧ { s with rot := 11 }.cycle / 16 < { s with rot := 11 }.rot)
    ∧ (stealDue (thief []) 0 = true ∧ (victimsOf (thief []) 0)[((thief []).core 0).victim % (victimsOf (thief []) 0).length]? = some 1
      ∧ givenEntry (thief []) 0 1 = none)
    ∧ (gives [queued (.range 2 4) 0] = some (0, queued (.range 2 4) 0) ∧ gives [queued (.range 6 7) 0] = some (0, queued (.range 6 7) 0)
      ∧ gives [queued .task 1] = some (0, queued .task 1)
      ∧ gives [{ queued .task 1 with spill := some 0x7000 }] = some (0, { queued .task 1 with spill := some 0x7000 }) ∧ ((thief []).core 0).deque.length < dequeCapacity (thief []) 0
      ∧ ((thief []).core 0).deque.length < 64)
    ∧ (starvationDue starving 0 = true ∧ (mostOver starving 0).map (fun o => o.lctx) = some 1 ∧ (newestBound starving 0 1).map (fun p => p.1) = some 13)
    ∧ [none, some (.wfi 7 (some 99) []), some (.macq 7 8 9), some (.broker 0x2000 true 7 8)].all (fun w =>
      let th := { th0 with preempt := true, wait := w, lctx := 1 }
      let s := { starving with threads := [(0, th)] }
      s.thread 0 == some th && th.place == .slot 0 && th.head.isNone && th.trapUntil.isNone && th.redo.isNone && !(s.core 0).retired
        && decide ((cachedOn s 0).length < 8) && th.pending.isEmpty && th.owed.isNone && (starvedContext s 0).map (fun a => a.lctx) == some 0) = true
    ∧ ((st th0).threads = [(0, th0)] ∧ th0.place = .slot 0 ∧ ((st th0).core 0).deque = []) := by
  refine ⟨?_, ?_, ?_, ?_, ?_, ⟨rfl, rfl, ?_⟩⟩ <;> decide +kernel

/-- A thunk that waits for the next slot, behind a task, as the thread leaves slot 0; and a core whose cache of eight and spill area are full. -/
theorem wit_SchedulingEventsMoveThreads_slots :
    (let d := [queued .task 0, queued (.thunk 0x20000 0x20000 4 .first) 0];
      d[1]? = some (queued (.thunk 0x20000 0x20000 4 .first) 0) ∧ (∀ m, m < 1 → (d[m]?).map (fun z => z.kind) = some .task)
      ∧ d.all (fun z => z.kind != .thunk 0x20000 0x20000 4 (.slot 0)) = true)
    ∧ (let s := { st { th0 with preempt := true } with
        threads := (0, { th0 with preempt := true }) :: (List.range 8).map (fun k => (k + 1, { th0 with place := .cached k })) };
      8 ≤ (cachedOn s 0).length ∧ freeSpill s 0 = none ∧ s.thread 0 = some { th0 with preempt := true }) := by
  refine ⟨?_, ?_, ?_, rfl⟩ <;> decide +kernel

/-! ### The host, the fabric and the directory -/

/-- The host's and another package's table at 0x100000: page 0 for all, the L page 2 with an EVALUATING word at 0x20008, page 3 without W, page 4 with
D and L, the K page 5, page 6 without R and page 7 with D. -/
def hosted (th : Thread) : State :=
  { st th with
    tags := [(0x20008 / 8, 2)], bad := [(0xC000 / 32, (-1 : BitVec 32))],
    mem := words [(0x1000, 0x8877665544332211), (0x100000, 0x110001), (0x110000, 0x120001), (0x120000, 0x1F), (0x120010, 0x2021F), (0x120018, 0x30013),
      (0x120020, 0x4031F), (0x120028, 0x000100100005041F), (0x120030, 0x60015), (0x120038, 0x7011F)],
    helben := { State.reset.helben with hostRoot := 0x100000, remotes := [(3, 0x100000)], shadows := [(5,
      { clusters := [(1, { Cluster.reset with doorbell := true })], cores := [], sram := [], badSram := [], halt := { stop := true, reason := 7, since := 10 },
        good := true })] },
    host := { State.reset.host with pending := [0, 1], msix := (Memory.writeLE [] 0 16 0x77).writeLE 28 4 1 },
    fabric := { State.reset.fabric with live := [0, 1, 2, 3], replays := [(2, 14), (3, 15)], seen := [(3, [6])], resetAt := [(2, [4])] } }

/-- The host's walk of n bytes. -/
def hostWalks (kind : AccessKind) (va n : Nat) (p : Nat → Hit → Bool) : Bool :=
  (List.range n).all (fun i => holds (walkHit (hosted th0) (hostCx (hosted th0)) kind (va + i) (BitVec.ofNat 64 (va + i))) (fun h =>
    !lineHeld (hosted th0) (.dram (h.entry.pa (va + i))) 1 && p (h.entry.pa (va + i)) h))

/-- What another package's access finds here. -/
def remotely (s : State) (kind : AccessKind) (va n : Nat) (p : Nat → Hit → Bool) : Bool :=
  let cx : Cx := { core := none, die := 4, mode := Mode.ofBit false, asid := 0, ptbase := (s.helben.remotes.find 3).getD 0, privbase := 0 }
  va % n == 0 && holds (walkHit s cx kind va (BitVec.ofNat 64 va)) (fun h => !lineHeld s (.dram (h.entry.pa va)) n && p (h.entry.pa va) h)

/-- More than one of D, L and K. -/
def manyOf (h : Hit) : Bool :=
  (h.entry.pte.getLsbD 8 && h.entry.pte.getLsbD 9) || (h.entry.pte.getLsbD 8 && h.entry.pte.getLsbD 10) || (h.entry.pte.getLsbD 9 && h.entry.pte.getLsbD 10)

/-- Whether the walk of a remote access is refused. -/
def refusesRemote (kind : AccessKind) (va : Nat) : Bool :=
  isTrap (walkHit (hosted th0) { core := none, die := 4, mode := Mode.ofBit false, asid := 0, ptbase := 0x100000, privbase := 0 } kind va
    (BitVec.ofNat 64 va))

/-- A read and a write of 16 bytes, of 8 and of 1, of an uncorrectable byte, over an EVALUATING word, of a page without W, of no page and beyond 64
GiB; bytes at different places; BAR 0 at both ends of its parts; a doorbell of an image; links at 14 and 15 failures. -/
theorem wit_HostFabricAndDirectoryEventsTakeEffect :
    tidy (hosted th0) = true
    ∧ hostWalks .load 0xFFF8 8 (fun pa _ => decide (pa < 2 ^ 36) && !(hosted th0).isBad pa 1) = true
    ∧ hostWalks .load 0x1000 1 (fun pa _ => !(hosted th0).isBad pa 1) = true
    ∧ hostWalks .load 0x1000 16 (fun pa _ => !(hosted th0).isBad pa 1) = true
    ∧ hostWalks .load 0xC01C 8 (fun pa _ => pa != 0xC01F || (hosted th0).isBad pa 1) = true
    ∧ hostWalks .store 0x20000 16 (fun pa h => pa != 0x20008 || h.entry.pte.getLsbD 9 && (hosted th0).tag pa == 2) = true
    ∧ hostWalks .store 0x20010 16 (fun pa h => h.entry.pte.getLsbD 9 && (hosted th0).tag pa != 2) = true
    ∧ (List.range 16).all (fun i => (List.range 16).all (fun k => i == k || hostWalks .store (0x20010 + i) 1 (fun x _ =>
      hostWalks .store (0x20010 + k) 1 (fun y _ => x != y)))) = true
    ∧ isTrap (walkHit (hosted th0) (hostCx (hosted th0)) .store 0x30000 0x30000) = true
    ∧ isTrap (walkHit (hosted th0) (hostCx (hosted th0)) .load 0x90000 0x90000) = true
    ∧ (hostWalks .load 0xFFFE 2 (fun _ _ => true) = true ∧ isTrap (walkHit (hosted th0) (hostCx (hosted th0)) .load 0x10000 0x10000) = true
      ∧ 2 ^ 36 ≤ 2 ^ 36 - 1 + 1)
    ∧ (0x7FF8 + 8 ≤ 2 ^ 20 ∧ 0x80F9 + 7 ≤ 2 ^ 20 ∧ 0x80F9 < 0x10000 ∧ 0xFFFFC + 4 ≤ 2 ^ 20 ∧ 0x10480 ≤ 0xFFFFC
      ∧ 0x10000 + 8 * 143 ≤ 0x1047F ∧ 0x1047F < 0x10000 + 8 * 143 + 8 ∧ 0x8000 < 0x7FF9 + 8)
    ∧ (0 ∈ (hosted th0).host.pending ∧ msixMasked (hosted th0).host 1 = true ∧ msixMasked (hosted th0).host 0 = false)
    ∧ (((hosted th0).helben.shadows.find 5).bind (fun x => x.clusters.find 1)).map (fun k => k.doorbell) = some true
    ∧ ((hosted th0).fabric.replays.find 2).getD 0 < 15 ∧ 15 ≤ ((hosted th0).fabric.replays.find 3).getD 0
    ∧ ((hosted th0).fabric.resetAt.find 2 = some [4] ∧ (hosted th0).cycle < 4 + 2 ^ 20)
    ∧ (let j := { lctx := 1, phase := 0, launch := launch1, copies := [1, 3] }
      let x := { thRemote with lctx := 1 }
      let s := { hosted x with helben := { (hosted x).helben with journal := [j] } }
      s.threads = [(0, x)] ∧ remoteAccess x = some (0x55, 3) ∧ linkServes s.fabric 2 3 = true ∧ s.helben.journal = [j] ∧ j.lctx = x.lctx.toNat) := by
  refine ⟨?_, ?_, ?_, ?_, ?_, ?_, ?_, ?_, ?_, ?_, ?_, ?_, ?_, ?_, ?_, ?_, ?_, rfl, ?_, ?_, rfl, ?_⟩ <;> decide +kernel

/-- A package without and with a table, a number seen and one not; loads, stores and atomics of that package, done and refused in each way; a
staged operation to finish; a line in each of its states. -/
theorem wit_HostFabricAndDirectoryEventsTakeEffect_remote :
    ((hosted th0).helben.remotes.find 4 = none ∧ 6 ∈ ((hosted th0).fabric.seen.find 3).getD [] ∧ 7 ∉ ((hosted th0).fabric.seen.find 3).getD [])
    ∧ ((hosted th0).helben.remotes.find 3 ≠ none ∧ 0x1001 % 2 ≠ 0 ∧ 2 ^ 52 ≤ 2 ^ 52)
    ∧ (refusesRemote .load 0x90000 && refusesRemote .store 0x30000) = true
    ∧ (remotely (hosted th0) .load 0x40000 8 (fun _ h => manyOf h) && remotely (hosted th0) .store 0x40000 8 (fun _ h => manyOf h)) = true
    ∧ remotely (hosted th0) .load 0xC018 8 (fun pa h => !manyOf h && (hosted th0).isBad pa 8) = true
    ∧ remotely (hosted th0) .load 0x20008 8 (fun pa h => !manyOf h && !(hosted th0).isBad pa 8 && h.entry.pte.getLsbD 9 && (hosted th0).tag pa != 0) = true
    ∧ [1, 2, 4, 8].all (fun n => remotely (hosted th0) .load 0x1000 n (fun pa h => !manyOf h && !(hosted th0).isBad pa n && !h.entry.pte.getLsbD 9)) = true
    ∧ remotely (hosted th0) .store 0x50000 8 (fun _ h => !manyOf h && h.entry.pte.getLsbD 10) = true
    ∧ (let s := { hosted th0 with bad := [(0x20000 / 32, (-1 : BitVec 32))] }
      remotely s .store 0x20000 8 (fun pa h => !manyOf h && !h.entry.pte.getLsbD 10 && h.entry.pte.getLsbD 9 && tagBad s pa)) = true
    ∧ remotely (hosted th0) .store 0x20008 4 (fun pa h => h.entry.pte.getLsbD 9 && !tagBad (hosted th0) pa && (hosted th0).tag pa != 0) = true
    ∧ remotely (hosted th0) .store 0x20010 8 (fun pa h => h.entry.pte.getLsbD 9 && !tagBad (hosted th0) pa && (hosted th0).tag pa == 0) = true
    ∧ remotely (hosted th0) .store 0x60000 4 (fun _ h => !h.entry.pte.getLsbD 1) = true
    ∧ remotely (hosted th0) .store 0x70000 4 (fun _ h => h.entry.pte.getLsbD 1 && h.entry.pte.getLsbD 8 && !h.entry.pte.getLsbD 9 && !h.entry.pte.getLsbD 10) = true
    ∧ remotely (hosted th0) .store 0x1000 8 (fun pa h => h.entry.pte.getLsbD 1 && !h.entry.pte.getLsbD 8 && !manyOf h && !(hosted th0).isBad pa 8) = true
    ∧ (let r := stagedOfAtom (atomOf 0 4 0x70000 true)
      let s := { hosted th0 with fabric := { (hosted th0).fabric with staged := [((3, 1), r)] } }
      s.fabric.staged = [((3, 1), r)] ∧ r.targets.all (fun p => !lineHeld s (.dram p.1) p.2) = true)
    ∧ ((0x17FFFFFFF : Nat) * 32 < 0x3000000000 ∧ lineHeld (hosted th0) (.dram (0x17FFFFFFF * 32)) 32 = false
      ∧ (hosted th0).dir.find 0x17FFFFFFF = none ∧ homeSlice (hosted th0) 0 / 128 = dieOfCore 0)
    ∧ ({ hosted th0 with dir := [(5, .shared [1, 2, 3]), (6, .ownedCore 9)] }.dir.find 5 = some (.shared [1, 2, 3]) ∧ 4607 ∉ [1, 2, 3] ∧ [1, 2, 3].length < 4)
    ∧ (let s := { hosted th0 with dir := [(5, .shared [1, 2, 3, 4]), (6, .ownedCore 9)] }
      s.dir.find 5 = some (.shared [1, 2, 3, 4]) ∧ ¬ [1, 2, 3, 4].length < 4 ∧ s.dir.find 6 = some (.ownedCore 9) ∧ 9 ≠ 4607 ∧ rising s.dir) := by
  refine ⟨?_, ?_, ?_, ?_, ?_, ?_, ?_, ?_, ?_, ?_, ?_, ?_, ?_, ?_, ⟨rfl, ?_⟩, ⟨?_, ?_, ?_, ?_⟩, ?_, ⟨rfl, ?_, rfl, ?_, ?_⟩⟩
  case refine_23 => simp [rising]
  all_goals decide +kernel

/-! ### Partitions and Helben -/

/-- Partition 3, of cluster 0, halted since cycle 10, in cycle 50 with a limit of 20 cycles. -/
def halted (th : Thread) (stop : Bool) : State :=
  { st th with cycle := 50, clusters := [(0, { Cluster.reset with partId := 3 })],
               helben := { State.reset.helben with haltLim := 20, halts := [(3, { stop := stop, reason := 7, since := 10 })] } }

/-- The image of a partition. -/
def image (good : Bool) : Shadow :=
  { clusters := [(0, { Cluster.reset with partId := 5 })], cores := [(3, core0)], sram := words [(0x2000, 99)], badSram := [(0x400, 1)],
    halt := { stop := true, reason := 7, since := 10 }, good := good }

/-- A halted partition, one of more than 8 clusters and one that runs, with each wait to withdraw and with none; each release, done and not done; a
thread that waits beyond the limit, and a halt within it; a swap out alone, one against a good image and one against a bad one. -/
theorem wit_PartitionsHaltReleaseAndSwap :
    [halted th0 true, halted th0 false, halted (headed th0 (.div 5 7 700)) true].all tidy = true
    ∧ ((halted th0 true).helben.halts.find 3).isSome = true ∧ 8 < (clustersOf (halted th0 true) 0).length
    ∧ [none, some (.wfi 5 none []), some (.macq 5 6 7), some (.ctxout 5 6 7), some (.broker 0x2000 true 5 6)].all (fun w =>
      let th : Thread := { th0 with wait := w }
      let s := { halted th true with helben := { (halted th true).helben with halts := [] } }
      s.helben.halts.isEmpty && decide ((clustersOf s 3).length ≤ 8) && s.thread 0 == some th && (s.cluster (clusterOfCore th.core)).partId == 3
        && th.isBound) = true
    ∧ haltDone (halted th0 true) 3 = true ∧ haltDone (halted th0 false) 3 = true ∧ haltDone (halted (headed th0 (.div 5 7 700)) true) 3 = false
    ∧ ((halted th0 true).threads = [(0, th0)] ∧ th0.place = .slot 0 ∧ ((halted th0 true).cluster 0).partId = 3 ∧ th0.wait = none)
    ∧ ((headed th0 (.div 5 7 700)).settled = false ∧ (headed th0 (.div 5 7 700)).evalOf = none
      ∧ 10 + (halted th0 true).helben.haltLim < (halted th0 true).cycle ∧ (halted th0 true).late = [])
    ∧ { halted th0 true with cycle := 30 }.cycle ≤ 10 + (halted th0 true).helben.haltLim
    ∧ (clustersOf (halted th0 true) 5 = [] ∧ (halted th0 true).helben.shadows.find 5 = none ∧ (clustersOf (halted th0 true) 3).length ≤ 8)
    ∧ (let s := halted { user [] with place := .swapped 5 0 3 0 } true
      (s.cluster 0).partId = 3 ∧ (s.cluster 0).retired = false ∧ haltDone s 3 = true ∧ rising (image true).clusters ∧ rising (image true).cores
      ∧ rising s.cores) := by
  refine ⟨?_, ?_, ?_, ?_, ?_, ?_, ?_, ⟨rfl, rfl, ?_⟩, ?_, ?_, ?_, ⟨?_, ?_, ?_, ?_, ?_, ?_⟩⟩
  all_goals first
    | decide +kernel
    | simp [rising, image, halted, st, one]

/-- An image that verifies, and none. -/
def startup (ok : Bool) : Startup :=
  { slotOk := [ok, ok], failed := [], partitions := [], torus := false, device := 3, live := [0, 1], dims := [], rings := [], width := 16, rate := 64, hostAsid := 0,
    hostRoot := 0, remotes := [], policy := { cap := 1800, haltLimit := 20, watch := [] }, imageOk := true, image := [], entry := 0x400, root := 0x100000 }

/-- A journal record of launch 1. -/
def journal : Journal := { lctx := 1, phase := 1, launch := launch1, copies := [1, 3] }

/-- A thread that waits for a page of the pool at 0x2000, which has one left. -/
def brokered (pages : Nat) (th : Thread) : State :=
  let s := kvState 1 1 1 1 1 0 th
  { s with mem := s.mem.writeLE 0x2000 4 pages, cores := s.cores.map (fun p => (p.1, { p.2 with broker := [], brokerOf := none })) }

/-- A sample of nothing. -/
def quiet : Reading := { temps := [], rails := [], coolant := 0, hot := [], dead := [], policy := none }

/-- No image and one that verifies, with nothing failed; step 4; a confirmation; an update that verifies and none, at the rollback counter and
below it; a sample without and with a policy; the last line of DRAM and word of SRAM; the last cluster and slice; a replay; the last page of a
pool, which a draw takes, one that traps and one that must wait; a pool whose flag can be changed; an image whose failure has not been logged, and
one that has been tried; a thread with a store outstanding, and one without. -/
theorem wit_HelbenStartsWatchesAndRepairs :
    (tidy State.reset && tidy (brokered 1 { thKv 0 with wait := some (.broker 0x2000 false 5 1) })) = true
    ∧ (∀ k, k < 2 → imageGood State.reset.helben (startup false).slotOk k = false) ∧ imageGood State.reset.helben (startup false).slotOk 2 = false
    ∧ (State.reset.helben.pendingSlot = none ∧ imageGood State.reset.helben (startup true).slotOk State.reset.helben.active = true
      ∧ (startup true).imageOk = true ∧ (startup true).failed = [] ∧ State.reset.clusters = [] ∧ State.reset.cores = [] ∧ (startup true).image = []
      ∧ (startup true).partitions = [])
    ∧ (let h := { State.reset.helben with step := 4, booted := false, pendingSlot := some 1, tried := true, running := 1, rollback := 1 }
      h.step = 4 ∧ h.booted = false ∧ { startup true with imageOk := false }.imageOk = false ∧ h.pendingSlot = some 1 ∧ h.tried = true
      ∧ { h with booted := true }.booted = true ∧ h.running = 1 ∧ h.rollback ≤ 1 ∧ 0 < h.rollback ∧ 1 - h.active < h.versions.length)
    ∧ ({ quiet with policy := some { cap := 1500, haltLimit := 9, watch := [] } }.policy = some { cap := 1500, haltLimit := 9, watch := [] }
      ∧ quiet.policy = none ∧ (halted th0 true).helben.halts.find 7 = none ∧ (clustersOf (halted th0 true) 7).length ≤ 8
      ∧ 7 ∈ { quiet with hot := [7] }.hot ∧ 7 ∉ quiet.hot)
    ∧ (143 < 144 ∧ 3 < 4 ∧ 127 < (if 3 < 2 then 64 else 128) ∧ 63 < (if 1 < 2 then 64 else 128) ∧ (0x17FFFFFFF : Nat) * 32 < 0x3000000000
      ∧ (144 * 2 ^ 19 - 1 < 144 * 2 ^ 19) ∧ State.reset.threads = [] ∧ (st th0).threads = [(0, th0)] ∧ th0.place = .slot 0 ∧ th0.evalOf = none)
    ∧ (let s := { st th0 with helben := { State.reset.helben with journal := [journal] } }
      s.helben.journal = [journal] ∧ journal.phase = 1 ∧ (∀ p ∈ s.threads, p.2.lctx.toNat ≠ 1) ∧ engineRuns s 0 = true ∧ s.clusters = []
      ∧ (∀ p ∈ s.cores, p.2.deque = []) ∧ (s.core 0).deqspill = 0)
    ∧ (let s := brokered 1 (thKv 0);
      (s.core 0).brokerOf = none ∧ (s.core 0).broker = [] ∧ s.mem.readLE 0x2000 4 = 1
        ∧ brokerEntry s (brokerCx 0 (s.csrsOf (thKv 0))) 0x2000 0 = some 0x3000 ∧ s.mem.readLE (0x2000 + 24) 4 < 2 ^ 32 - 1)
    ∧ [(0, (1 : Reg), 0), (0, 5, 1), (0x1000010000, 1, 2)].all (fun p =>
      let th := { thKv 0 with wait := some (.broker 0x2000 false 5 p.2.1) }
      let s := (brokered 1 th).putCluster 0 { Cluster.reset with jobs := (((owned (st th0)).cluster 0).jobs.map (fun j =>
        { j with owned := [{ iter := 0, dram := true, start := p.1, len := 32 }] })) }
      let s1 := if s.mem.readLE (0x2000 + 20) 4 % 2 = 1 then refillCache s th.core 0x2000 (s.csrsOf th) else s
      let draw := kvTake { s1.putThread 0 { th with wait := none } with cur := 0 } { th with wait := none } 5 p.2.1
      s.thread 0 == some th && (if p.2.2 = 0 then isOk draw else if p.2.2 = 1 then isTrap draw else isBusy draw)) = true
    ∧ (let s := brokered 1 (thKv 0);
      (match walk s none 0 0x100000 0x2000 with
        | .leaf e => e.pa 0x2000 == 0x2000
        | _ => false) = true
        ∧ (0x2000 : Word).toNat % 64 = 0 ∧ ownedAt s true 0x2000 64 = false
        ∧ (poolAt s 0x2000 { ptr := 0x2000, loc := .dram 0x2000, hit := none, win := 0 }).2 = true ∧ (∀ p ∈ s.cores, p.2.brokerOf = none) ∧ s.helben.shadows = [])
    ∧ ({ State.reset.helben with missed := true }.missed = true
      ∧ { State.reset.helben with tried := true, pendingSlot := some 1 }.pendingSlot = some (1 - State.reset.helben.active))
    ∧ (let busy := headed th0 (.store 8 0x1000 7 (.dram 0x1000) false)
      (st busy).threads = [(0, busy)] ∧ busy.head ≠ none ∧ (st busy).helben.journal = [] ∧ clusterOfCore busy.core = 0 ∧ busy.evalOf = none
      ∧ th0.head = none ∧ th0.wait = none ∧ clusterOfCore th0.core ≠ 1) := by
  refine ⟨?_, ?_, ?_, ?_, ?_, ⟨rfl, rfl, ?_⟩, ?_, ⟨rfl, ?_⟩, ?_, ?_, ?_, ⟨rfl, ?_⟩, rfl, ?_⟩ <;> decide +kernel

end Sys2Proof.Tests
end

section
/-!
PROOFS. The integer instructions that act on registers alone (R103, R104, R106 to R110): how such an instruction retires with
its value, what the shared operations on words give, and the four tables assembled from both.
-/
namespace Sys2Proof.Machine

/-! ### An instruction that writes one register -/

/-- An instruction whose meaning is to write `f` of the current thread into X[d] retires with that value. -/
theorem exec_writes {s : State} {th : Thread} {i : Instr} {d : Reg} {f : Thread → Word} {v : Word}
    (meaning : exec i s = runThread s (fun t => .ok (t.setX d (f t)))) (h : s.current = some th) (value : f th = v) :
    exec i s = retires s (th.setX d v) := by
  subst value
  exact meaning.trans (runThread_ok h rfl)

/-! ### Amounts, rotations and comparisons -/

theorem shiftAmount_eq_extract (B : Word) : shiftAmount B = (B.extractLsb' 0 6).toNat := by
  simp [shiftAmount]

theorem mod32_eq_extract (B : Word) : B.toNat % 32 = (B.extractLsb' 0 5).toNat := by
  simp

theorem rotl_eq_ite (A : Word) (k : Nat) : rotl A k = if k = 0 then A else (A <<< k) ||| (A >>> (64 - k)) := by
  unfold rotl
  split
  · subst k; simp [BitVec.ushiftRight_eq_zero]
  · rfl

theorem rotr_eq_ite (A : Word) (k : Nat) : rotr A k = if k = 0 then A else (A >>> k) ||| (A <<< (64 - k)) := by
  unfold rotr
  split
  · subst k; simp [BitVec.shiftLeft_eq_zero]
  · rfl

theorem ite_toInt_lt {α : Type} (A B : Word) (x y : α) : (if A.toInt < B.toInt then x else y) = if A.slt B then x else y := by
  simp only [BitVec.slt_iff_toInt_lt]

theorem ite_toNat_lt {α : Type} (A B : Word) (x y : α) : (if A.toNat < B.toNat then x else y) = if A.ult B then x else y := by
  simp only [BitVec.ult_iff_toNat_lt]

theorem bit_toInt_lt (A B : Word) : bit (decide (A.toInt < B.toInt)) = if A.slt B then 1 else 0 := rfl

theorem bit_toNat_lt (A B : Word) : bit (decide (A.toNat < B.toNat)) = if A.ult B then 1 else 0 := rfl

theorem bit_eq (A B : Word) : bit (decide (A = B)) = if A = B then 1 else 0 := by
  simp [bit]

theorem bit_ne (A B : Word) : bit (decide (A ≠ B)) = if A = B then 0 else 1 := by
  by_cases h : A = B <;> simp [bit, h]

/-! ### The low 32 bits -/

theorem truncate_eq_extract (A : Word) : A.truncate 32 = A.extractLsb' 0 32 :=
  BitVec.setWidth_eq_extractLsb' (by decide)

theorem sext32_eq_extract (A : Word) : sext32 A = (A.extractLsb' 0 32).signExtend 64 := by
  rw [sext32, truncate_eq_extract]

theorem sext32_add (A B : Word) : sext32 (A + B) = (A.extractLsb' 0 32 + B.extractLsb' 0 32).signExtend 64 := by
  rw [sext32_eq_extract, BitVec.extractLsb'_add (by decide)]

theorem sext32_sub (A B : Word) : sext32 (A - B) = (A.extractLsb' 0 32 - B.extractLsb' 0 32).signExtend 64 := by
  have negated : (-B).extractLsb' 0 32 = -B.extractLsb' 0 32 := by
    rw [← BitVec.setWidth_eq_extractLsb' (by decide), BitVec.setWidth_neg_of_le (by decide), BitVec.setWidth_eq_extractLsb' (by decide)]
  rw [BitVec.sub_eq_add_neg, sext32_add, negated, ← BitVec.sub_eq_add_neg]

theorem sext32_mul (A B : Word) : sext32 (A * B) = (A.extractLsb' 0 32 * B.extractLsb' 0 32).signExtend 64 := by
  rw [sext32_eq_extract, BitVec.extractLsb'_mul (by decide)]

/-! ### High halves of products -/

/-- The high half of a number taken modulo 2^128. -/
theorem extract_high_ofInt (z : Int) : (BitVec.ofInt 128 z).extractLsb' 64 64 = BitVec.ofInt 64 (z / 2 ^ 64) := by
  apply BitVec.eq_of_toNat_eq
  simp only [BitVec.extractLsb'_toNat, BitVec.toNat_ofInt, Nat.shiftRight_eq_div_pow]
  omega

theorem high_half_signed (A B : Word) :
    BitVec.ofInt 64 (A.toInt * B.toInt / 2 ^ 64) = (A.signExtend 128 * B.signExtend 128).extractLsb' 64 64 := by
  have product : A.signExtend 128 * B.signExtend 128 = BitVec.ofInt 128 (A.toInt * B.toInt) := (BitVec.ofInt_mul _ _).symm
  rw [product, extract_high_ofInt]

theorem high_half_unsigned (A B : Word) :
    BitVec.ofNat 64 (A.toNat * B.toNat / 2 ^ 64) = (A.zeroExtend 128 * B.zeroExtend 128).extractLsb' 64 64 := by
  have product : A.zeroExtend 128 * B.zeroExtend 128 = BitVec.ofInt 128 ((A.toNat * B.toNat : Nat) : Int) := by
    rw [BitVec.ofInt_natCast, BitVec.ofNat_mul, BitVec.ofNat_toNat, BitVec.ofNat_toNat]
  rw [product, extract_high_ofInt]
  exact (BitVec.ofInt_natCast _ _).symm

/-! ### Immediates -/

theorem immU_eq_shiftLeft (imm : BitVec 20) : immU imm = imm.signExtend 64 <<< 12 :=
  BitVec.mul_twoPow_eq_shiftLeft _ 12

/-! ### Counts of bits -/

/-- The number of zeros that `leadingZeros` finds in the low n bits: those bits are 0 and the next one below, if any, is 1. -/
theorem leadingZeros_spec (A : Word) (n : Nat) :
    leadingZeros n A ≤ n ∧ (∀ i, n - leadingZeros n A ≤ i → i < n → A.getLsbD i = false)
      ∧ (leadingZeros n A < n → A.getLsbD (n - 1 - leadingZeros n A) = true) := by
  induction n with
  | zero => simp [leadingZeros]
  | succ n ih =>
    obtain ⟨bound, zeros, one⟩ := ih
    cases top : A.getLsbD n with
    | true =>
      have stops : leadingZeros (n + 1) A = 0 := by simp [leadingZeros, top]
      exact ⟨by omega, fun i _ _ => by omega, fun _ => by simpa [stops] using top⟩
    | false =>
      have more : leadingZeros (n + 1) A = 1 + leadingZeros n A := by simp [leadingZeros, top]
      refine ⟨by omega, fun i low high => ?_, fun short => ?_⟩
      · rcases Nat.lt_succ_iff_lt_or_eq.mp high with below | rfl
        · exact zeros i (by omega) below
        · exact top
      · rw [show n + 1 - 1 - leadingZeros (n + 1) A = n - 1 - leadingZeros n A by omega]
        exact one (by omega)

/-- The number of zeros that `trailingZeros` finds from bit 64 − n up: those bits are 0 and the next one above, if any, is 1. -/
theorem trailingZeros_spec (A : Word) {n : Nat} (small : n ≤ 64) :
    trailingZeros n A ≤ n ∧ (∀ i, i < trailingZeros n A → A.getLsbD (64 - n + i) = false)
      ∧ (trailingZeros n A < n → A.getLsbD (64 - n + trailingZeros n A) = true) := by
  induction n with
  | zero => simp [trailingZeros]
  | succ n ih =>
    obtain ⟨bound, zeros, one⟩ := ih (by omega)
    have first : 64 - (n + 1) = 63 - n := by omega
    cases low : A.getLsbD (63 - n) with
    | true =>
      have stops : trailingZeros (n + 1) A = 0 := by simp [trailingZeros, low]
      exact ⟨by omega, fun i _ => by omega, fun _ => by simpa [stops, first] using low⟩
    | false =>
      have more : trailingZeros (n + 1) A = 1 + trailingZeros n A := by simp [trailingZeros, low]
      refine ⟨by omega, fun i below => ?_, fun short => ?_⟩
      · cases i with
        | zero => simpa [first] using low
        | succ i => rw [show 64 - (n + 1) + (i + 1) = 64 - n + i by omega]; exact zeros i (by omega)
      · rw [show 64 - (n + 1) + trailingZeros (n + 1) A = 64 - n + trailingZeros n A by omega]
        exact one (by omega)

theorem countOnes_eq_countP (A : Word) (n : Nat) : countOnes n A = (List.range n).countP (fun i => A.getLsbD i) := by
  induction n with
  | zero => rfl
  | succ n ih => simp [countOnes, ih, List.range_succ, List.countP_append, List.countP_singleton, Nat.add_comm]

/-! ### Bit and byte order -/

theorem getLsbD_reverse_word (A : Word) {i : Nat} (h : i < 64) : A.reverse.getLsbD i = A.getLsbD (63 - i) := by
  rw [BitVec.getLsbD_reverse, BitVec.getMsbD_eq_getLsbD, decide_eq_true h, Bool.true_and]

/-- The first n bytes of a word, each at its place in the byte-swapped one. -/
def byteSwapFirst (n : Nat) (A : Word) : Word :=
  (List.range n).foldl (fun (acc : Word) i => acc ||| ((A.extractLsb' (8 * i) 8).zeroExtend 64 <<< (8 * (7 - i)))) 0

theorem byteSwapFirst_succ (n : Nat) (A : Word) :
    byteSwapFirst (n + 1) A = byteSwapFirst n A ||| ((A.extractLsb' (8 * n) 8).zeroExtend 64 <<< (8 * (7 - n))) := by
  simp [byteSwapFirst, List.range_succ]

theorem byteSwap_eq_byteSwapFirst (A : Word) : byteSwap A = byteSwapFirst 8 A := rfl

theorem getLsbD_byte_moved (A : Word) {n j : Nat} (hn : n < 8) (hj : j < 64) :
    ((A.extractLsb' (8 * n) 8).zeroExtend 64 <<< (8 * (7 - n))).getLsbD j
      = (decide (7 - j / 8 = n) && A.getLsbD (8 * (7 - j / 8) + j % 8)) := by
  rw [BitVec.getLsbD_shiftLeft, BitVec.getLsbD_setWidth, BitVec.getLsbD_extractLsb']
  by_cases below : j < 8 * (7 - n)
  · simp [below, show 7 - j / 8 ≠ n by omega]
  · by_cases inside : j - 8 * (7 - n) < 8
    · have place : 8 * n + (j - 8 * (7 - n)) = 8 * (7 - j / 8) + j % 8 := by omega
      simp [below, inside, place, hj, show 7 - j / 8 = n by omega, show j - 8 * (7 - n) < 64 by omega]
    · simp [inside, show 7 - j / 8 ≠ n by omega]

theorem getLsbD_byteSwapFirst (A : Word) {n j : Nat} (hn : n ≤ 8) (hj : j < 64) :
    (byteSwapFirst n A).getLsbD j = (decide (7 - j / 8 < n) && A.getLsbD (8 * (7 - j / 8) + j % 8)) := by
  induction n with
  | zero => simp [byteSwapFirst]
  | succ n ih =>
    rw [byteSwapFirst_succ, BitVec.getLsbD_or, ih (by omega), getLsbD_byte_moved A (by omega) hj, ← Bool.and_or_distrib_right,
      ← Bool.decide_or]
    simp only [Nat.lt_succ_iff_lt_or_eq]

theorem extract_byteSwap (A : Word) {i : Nat} (h : i < 8) :
    (byteSwap A).extractLsb' (8 * i) 8 = A.extractLsb' (8 * (7 - i)) 8 := by
  ext j hj
  have first : decide (7 - (8 * i + j) / 8 < 8) = true := decide_eq_true (by omega)
  have place : 8 * (7 - (8 * i + j) / 8) + (8 * i + j) % 8 = 8 * (7 - i) + j := by omega
  rw [BitVec.getElem_extractLsb', BitVec.getElem_extractLsb', byteSwap_eq_byteSwapFirst,
    getLsbD_byteSwapFirst A (Nat.le_refl 8) (by omega), first, place, Bool.true_and]

/-! ### Bit fields -/

theorem fieldMask_eq_ofNat (n : Nat) : fieldMask n = BitVec.ofNat 64 (2 ^ n - 1) := by
  unfold fieldMask
  split
  · subst n; rfl
  · rw [← BitVec.ofNat_sub_ofNat_of_le _ _ (by decide) Nat.one_le_two_pow]
    congr 1
    apply BitVec.eq_of_toNat_eq
    simp [Nat.shiftLeft_eq]

theorem getLsbD_fieldMask (n : Nat) {i : Nat} (hi : i < 64) : (fieldMask n).getLsbD i = decide (i < n) := by
  rw [fieldMask_eq_ofNat, BitVec.getLsbD_ofNat, Nat.testBit_two_pow_sub_one, decide_eq_true hi, Bool.true_and]

theorem getLsbD_field_extracted (A : Word) (lo n : Nat) {i : Nat} (hi : i < 64) :
    ((A >>> lo) &&& fieldMask n).getLsbD i = (decide (i < n) && A.getLsbD (lo + i)) := by
  rw [BitVec.getLsbD_and, BitVec.getLsbD_ushiftRight, getLsbD_fieldMask n hi, Bool.and_comm]

theorem getLsbD_fieldMask_placed (lo n : Nat) {i : Nat} (hi : i < 64) :
    (fieldMask n <<< lo).getLsbD i = decide (lo ≤ i ∧ i < lo + n) := by
  rw [BitVec.getLsbD_shiftLeft, getLsbD_fieldMask n (by omega), decide_eq_true hi]
  by_cases below : i < lo
  · simp [below, Nat.not_le.mpr below]
  · have reach : i - lo < n ↔ i < lo + n := by omega
    simp [below, reach, Nat.not_lt.mp below]

theorem getLsbD_field_inserted (D A : Word) (lo n : Nat) {i : Nat} (hi : i < 64) :
    ((D &&& ~~~(fieldMask n <<< lo)) ||| ((A &&& fieldMask n) <<< lo)).getLsbD i
      = if lo ≤ i ∧ i < lo + n then A.getLsbD (i - lo) else D.getLsbD i := by
  rw [BitVec.shiftLeft_and_distrib, BitVec.getLsbD_or, BitVec.getLsbD_and, BitVec.getLsbD_and, BitVec.getLsbD_not,
    getLsbD_fieldMask_placed lo n hi, BitVec.getLsbD_shiftLeft, decide_eq_true hi]
  by_cases inside : lo ≤ i ∧ i < lo + n <;> simp [inside]

section
variable {s : State} {th : Thread} (h : s.current = some th) (d a : Reg) {p w : BitVec 6}
include h

theorem exec_bfx_inside (fits : p.toNat + (w.toNat + 1) ≤ 64) :
    exec (.bfx d a p w) s = retires s (th.setX d ((th.getX a >>> p.toNat) &&& fieldMask (w.toNat + 1))) :=
  runThread_ok h (if_neg (Nat.not_lt.mpr fits))

theorem exec_bfi_inside (fits : p.toNat + (w.toNat + 1) ≤ 64) :
    exec (.bfi d a p w) s = retires s (th.setX d ((th.getX d &&& ~~~(fieldMask (w.toNat + 1) <<< p.toNat))
      ||| ((th.getX a &&& fieldMask (w.toNat + 1)) <<< p.toNat))) :=
  runThread_ok h (if_neg (Nat.not_lt.mpr fits))

theorem exec_bfx_past_end (past : 64 < p.toNat + (w.toNat + 1)) (free : th.head = none) :
    exec (.bfx d a p w) s = .next (s.takeTrap s.cur { cause := .reservedField, val := th.pc }) :=
  runThread_trap h free (if_pos past)

theorem exec_bfi_past_end (past : 64 < p.toNat + (w.toNat + 1)) (free : th.head = none) :
    exec (.bfi d a p w) s = .next (s.takeTrap s.cur { cause := .reservedField, val := th.pc }) :=
  runThread_trap h free (if_pos past)

end

/-! ### The tables -/

/-- Settles O1: each row is the meaning of its instruction, with the amounts as bit fields and the comparisons and rotations in
the words of R103. -/
theorem aluWritesTheTabledValue : Obligations.AluWritesTheTabledValue := by
  unfold Obligations.AluWritesTheTabledValue
  intro s th d a b h
  simp only [← shiftAmount_eq_extract, ← mod32_eq_extract, ← truncate_eq_extract]
  exact ⟨
    -- ADD, SUB and the logic instructions
    exec_writes rfl h rfl, exec_writes rfl h rfl, exec_writes rfl h rfl, exec_writes rfl h rfl,
    exec_writes rfl h rfl, exec_writes rfl h rfl, exec_writes rfl h rfl, exec_writes rfl h rfl,
    -- SLL, SRL, SRA, ROL and ROR
    exec_writes rfl h rfl, exec_writes rfl h rfl, exec_writes rfl h rfl,
    exec_writes rfl h (rotl_eq_ite _ _), exec_writes rfl h (rotr_eq_ite _ _),
    -- MIN, MAX, MINN and MAXN
    exec_writes rfl h (ite_toInt_lt _ _ _ _), exec_writes rfl h (ite_toInt_lt _ _ _ _),
    exec_writes rfl h (ite_toNat_lt _ _ _ _), exec_writes rfl h (ite_toNat_lt _ _ _ _),
    -- SLT, SLTN, SEQ and SNE
    exec_writes rfl h (bit_toInt_lt _ _), exec_writes rfl h (bit_toNat_lt _ _),
    exec_writes rfl h (bit_eq _ _), exec_writes rfl h (bit_ne _ _),
    -- the W forms
    exec_writes rfl h (sext32_add _ _), exec_writes rfl h (sext32_sub _ _),
    exec_writes rfl h rfl, exec_writes rfl h rfl, exec_writes rfl h rfl⟩

/-- Settles O2: the quotient of the exact product by 2^64 is the high half of the 128-bit product. -/
theorem multipliesWriteTheTabledHalf : Obligations.MultipliesWriteTheTabledHalf := by
  unfold Obligations.MultipliesWriteTheTabledHalf
  intro s th d a b h
  exact ⟨exec_writes rfl h rfl, exec_writes rfl h (high_half_signed _ _), exec_writes rfl h (high_half_unsigned _ _),
    exec_writes rfl h (sext32_mul _ _)⟩

/-- Settles O4: the rows of R107, of R108 by their amount k, and of R110, whose factor 4,096 is a shift by 12. -/
theorem immediateFormsWriteTheirValue : Obligations.ImmediateFormsWriteTheirValue := by
  unfold Obligations.ImmediateFormsWriteTheirValue
  refine ⟨fun s th d a imm h => ?_, fun s th d a k h => ?_, fun s th d imm h => ?_⟩
  · exact ⟨exec_writes rfl h rfl, exec_writes rfl h rfl, exec_writes rfl h rfl, exec_writes rfl h rfl,
      exec_writes rfl h (bit_toInt_lt _ _), exec_writes rfl h (bit_toNat_lt _ _)⟩
  · exact ⟨exec_writes rfl h rfl, exec_writes rfl h rfl, exec_writes rfl h rfl,
      exec_writes rfl h (rotl_eq_ite _ _), exec_writes rfl h (rotr_eq_ite _ _)⟩
  · exact ⟨exec_writes rfl h (immU_eq_shiftLeft imm), exec_writes rfl h (congrArg (th.pc + ·) (immU_eq_shiftLeft imm))⟩

/-- Settles O5: the counts by induction on the number of bits looked at, the swap by induction on the number of bytes moved, and
the fields bit by bit. -/
theorem bitInstructionsWriteTheirValue : Obligations.BitInstructionsWriteTheirValue := by
  unfold Obligations.BitInstructionsWriteTheirValue
  refine ⟨fun s th d a h => ⟨?clz, ?ctz, ?popc, ?brev, ?bswap⟩,
    fun s th d a p w h => ⟨fun fits => ⟨?bfx, ?bfi⟩, fun past free => ?trap⟩⟩
  case clz => exact ⟨leadingZeros 64 (th.getX a), exec_writes rfl h rfl, leadingZeros_spec (th.getX a) 64⟩
  case ctz =>
    have spec := trailingZeros_spec (th.getX a) (Nat.le_refl 64)
    simp only [Nat.sub_self, Nat.zero_add] at spec
    exact ⟨trailingZeros 64 (th.getX a), exec_writes rfl h rfl, spec⟩
  case popc => exact exec_writes rfl h (congrArg (BitVec.ofNat 64) (countOnes_eq_countP (th.getX a) 64))
  case brev => exact ⟨(th.getX a).reverse, exec_writes rfl h rfl, fun _ hi => getLsbD_reverse_word (th.getX a) hi⟩
  case bswap => exact ⟨byteSwap (th.getX a), exec_writes rfl h rfl, fun _ hi => extract_byteSwap (th.getX a) hi⟩
  case bfx => exact ⟨_, exec_bfx_inside h d a fits, fun _ hi => getLsbD_field_extracted _ _ _ hi⟩
  case bfi => exact ⟨_, exec_bfi_inside h d a fits, fun _ hi => getLsbD_field_inserted _ _ _ _ hi⟩
  case trap => exact ⟨exec_bfx_past_end h d a past free, exec_bfi_past_end h d a past free⟩

end Sys2Proof.Machine
end

section
/-!
PROOFS. The integer vector instructions (R209): how an element-wise instruction without flags retires, which elements the
register it writes holds, what each row's arithmetic on numbers is on bit vectors of the element's width, and the table
assembled from these.
-/
namespace Sys2Proof.Machine

/-! ### Elements of a vector register -/

/-- The element as a bit vector (the statements' reading of R203) and the model's element as a number are one. -/
theorem toNat_element (v : VWord) (w i : Nat) : (element v w i).toNat = elemOf v w i := by
  simp [element, elemOf, Nat.shiftRight_eq_div_pow]

theorem packElems_div_mod (w : Nat) (l : List Nat) (i : Nat) : packElems w l / 2 ^ (w * i) % 2 ^ w = l.getD i 0 % 2 ^ w := by
  induction l generalizing i with
  | nil => simp [packElems]
  | cons e rest ih =>
    have unfolded : packElems w (e :: rest) = e % 2 ^ w + 2 ^ w * packElems w rest := rfl
    have low : e % 2 ^ w < 2 ^ w := Nat.mod_lt _ (Nat.two_pow_pos w)
    rw [unfolded]
    cases i with
    | zero => simp
    | succ i =>
      rw [Nat.mul_succ, Nat.add_comm (w * i), Nat.pow_add, ← Nat.div_div_eq_div_mul, Nat.add_mul_div_left _ _ (Nat.two_pow_pos w),
        Nat.div_eq_of_lt low, Nat.zero_add, ih, List.getD_cons_succ]

/-- Cutting a number to m bits leaves the fields that lie below bit m. -/
theorem field_toNat_ofNat (x : Nat) {m lo w : Nat} (fits : lo + w ≤ m) :
    (BitVec.ofNat m x).toNat / 2 ^ lo % 2 ^ w = x / 2 ^ lo % 2 ^ w := by
  rw [BitVec.toNat_ofNat, ← Nat.add_sub_cancel' (Nat.le_of_add_right_le fits), Nat.pow_add, Nat.mod_mul_right_div_self,
    Nat.mod_mod_of_dvd _ (Nat.pow_dvd_pow 2 (Nat.le_sub_of_add_le' fits))]

theorem elemOf_vOfElems (l : List Nat) {w i : Nat} (hi : i < 2048 / w) : elemOf (vOfElems w l) w i = l.getD i 0 % 2 ^ w := by
  have fits : w * i + w ≤ 2048 := calc
    w * i + w = w * (i + 1) := rfl
    _ ≤ w * (2048 / w) := Nat.mul_le_mul_left w hi
    _ ≤ 2048 := Nat.mul_div_le 2048 w
  rw [elemOf, vOfElems, field_toNat_ofNat _ fits, packElems_div_mod]

theorem element_vOfElems_map (f : Nat → Nat) {w i : Nat} (hi : i < 2048 / w) :
    element (vOfElems w ((List.range (2048 / w)).map f)) w i = BitVec.ofNat w (f i) := by
  apply BitVec.eq_of_toNat_eq
  rw [toNat_element, elemOf_vOfElems _ hi, BitVec.toNat_ofNat]
  simp [List.getD_eq_getElem?_getD, hi]

/-! ### An element-wise instruction that raises no flag -/

theorem orFlags_eq_zero {l : List (BitVec 5)} (silent : ∀ x ∈ l, x = 0) : orFlags l = 0 := by
  unfold orFlags
  induction l with
  | nil => rfl
  | cons x rest ih =>
    obtain ⟨rfl, silentRest⟩ := List.forall_mem_cons.mp silent
    exact ih silentRest

/-- Without a flag nothing traps, and FFLAGS and FLAGORG stay (R95, R140). -/
theorem Thread.withFlags_of_no_flags (th : Thread) {l : List (Nat × BitVec 5)} (k : Thread → Thread)
    (silent : ∀ p ∈ l, p.2 = 0) : th.withFlags l k = .ok (k th) := by
  have noFlags : orFlags (l.map (·.2)) = 0 := orFlags_eq_zero (List.forall_mem_map.mpr silent)
  simp [Thread.withFlags, fpTrap, Thread.raise, noFlags]

/-- What an element-wise instruction that raises no flag writes: `f` of the elements of A and B where the mask is on, and the
old element elsewhere. -/
def elementwise (th : Thread) (d a b : VReg) (mk : MReg) (w : Nat) (f : Nat → Nat → Nat) : VWord :=
  vOfElems w ((List.range (2048 / w)).map (fun i =>
    if (th.getM mk).getLsbD i then f (elemOf (th.getV a) w i) (elemOf (th.getV b) w i) else elemOf (th.getV d) w i))

theorem runVec_no_flags {s : State} {th : Thread} (h : s.current = some th) (d a b : VReg) (mk : MReg) (w : Nat)
    (f : Nat → Nat → Nat) :
    runVec s d a b mk w (fun _ A B _ => (f A B, 0)) = retires s (th.setV d (elementwise th d a b mk w f)) := by
  apply runThread_ok h
  rw [Thread.withFlags_of_no_flags]
  · simp [elementwise, Function.comp_def, apply_ite]
  · intro p hp
    obtain ⟨r, hr, flag⟩ := List.mem_map.mp (List.of_mem_zip hp).2
    obtain ⟨i, -, rfl⟩ := List.mem_map.mp hr
    rw [← flag]
    dsimp only
    split <;> rfl

/-- An instruction whose meaning is element-wise, without flags, retires with the elements `g` where the mask is on, when `f` on
the elements' numbers is `g` on the elements, modulo 2^w. -/
theorem exec_computes {s : State} {th : Thread} {i : Instr} {d a b : VReg} {mk : MReg} {w : Nat} {f : Nat → Nat → Nat}
    {g : BitVec w → BitVec w → BitVec w} (meaning : exec i s = runVec s d a b mk w (fun _ A B _ => (f A B, 0)))
    (h : s.current = some th) (value : ∀ A B : BitVec w, BitVec.ofNat w (f A.toNat B.toNat) = g A B) :
    ∃ v : VWord, exec i s = retires s (th.setV d v) ∧ ∀ j, j < 2048 / w →
      element v w j = if (th.getM mk).getLsbD j then g (element (th.getV a) w j) (element (th.getV b) w j)
        else element (th.getV d) w j := by
  refine ⟨elementwise th d a b mk w f, meaning.trans (runVec_no_flags h d a b mk w f), fun j hj => ?_⟩
  rw [elementwise, element_vOfElems_map _ hj]
  split
  · rw [← value, toNat_element, toNat_element]
  · rw [← toNat_element, BitVec.ofNat_toNat, BitVec.setWidth_eq]

/-! ### The arithmetic of an element -/

theorem ofNat_add_mod {w : Nat} (A B : BitVec w) : BitVec.ofNat w ((A.toNat + B.toNat) % 2 ^ w) = A + B := by
  apply BitVec.eq_of_toNat_eq
  simp

theorem ofNat_sub_mod {w : Nat} (A B : BitVec w) : BitVec.ofNat w ((2 ^ w + A.toNat - B.toNat) % 2 ^ w) = A - B := by
  have order : 2 ^ w + A.toNat - B.toNat = 2 ^ w - B.toNat + A.toNat := by
    have := B.isLt
    omega
  apply BitVec.eq_of_toNat_eq
  simp [order, BitVec.toNat_sub]

theorem ofNat_mul_mod {w : Nat} (A B : BitVec w) : BitVec.ofNat w (A.toNat * B.toNat % 2 ^ w) = A * B := by
  apply BitVec.eq_of_toNat_eq
  simp [BitVec.toNat_mul]

theorem ofNat_land {w : Nat} (A B : BitVec w) : BitVec.ofNat w (A.toNat &&& B.toNat) = A &&& B := by
  rw [← BitVec.toNat_and, BitVec.ofNat_toNat, BitVec.setWidth_eq]

theorem ofNat_lor {w : Nat} (A B : BitVec w) : BitVec.ofNat w (A.toNat ||| B.toNat) = A ||| B := by
  rw [← BitVec.toNat_or, BitVec.ofNat_toNat, BitVec.setWidth_eq]

theorem ofNat_xor {w : Nat} (A B : BitVec w) : BitVec.ofNat w (A.toNat ^^^ B.toNat) = A ^^^ B := by
  rw [← BitVec.toNat_xor, BitVec.ofNat_toNat, BitVec.setWidth_eq]

theorem mod_eq_land_pred {w n : Nat} (power : w = 2 ^ n) (x : Nat) : x % w = x &&& (w - 1) := by
  subst power
  exact (Nat.and_two_pow_sub_one_eq_mod x n).symm

/-- B AND (w − 1) is B modulo w, since the width is a power of two (R209). -/
theorem elemShift_eq_and {w n : Nat} (power : w = 2 ^ n) (B : BitVec w) :
    elemShift w B.toNat = (B &&& BitVec.ofNat w (w - 1)).toNat := by
  have small : w - 1 < 2 ^ w := Nat.lt_of_le_of_lt (Nat.sub_le w 1) Nat.lt_two_pow_self
  rw [BitVec.toNat_and, BitVec.toNat_ofNat, Nat.mod_eq_of_lt small, ← mod_eq_land_pred power]
  rfl

theorem ofNat_shiftLeft_amount {w n : Nat} (power : w = 2 ^ n) (A B : BitVec w) :
    BitVec.ofNat w (A.toNat * 2 ^ elemShift w B.toNat % 2 ^ w) = A <<< (B &&& BitVec.ofNat w (w - 1)).toNat := by
  rw [elemShift_eq_and power]
  apply BitVec.eq_of_toNat_eq
  simp [Nat.shiftLeft_eq]

theorem ofNat_ushiftRight_amount {w n : Nat} (power : w = 2 ^ n) (A B : BitVec w) :
    BitVec.ofNat w (A.toNat / 2 ^ elemShift w B.toNat) = A >>> (B &&& BitVec.ofNat w (w - 1)).toNat := by
  rw [elemShift_eq_and power, ← Nat.shiftRight_eq_div_pow, ← BitVec.toNat_ushiftRight, BitVec.ofNat_toNat, BitVec.setWidth_eq]

theorem signedOf_toNat {w : Nat} (positive : 0 < w) (A : BitVec w) : signedOf w A.toNat = A.toInt := by
  have halves : 2 ^ (w - 1) + 2 ^ (w - 1) = 2 ^ w := Nat.two_pow_pred_add_two_pow_pred positive
  have bound := A.isLt
  rw [signedOf, BitVec.toInt_eq_toNat_cond, Nat.mod_eq_of_lt bound, Int.emod_eq_of_lt (by omega) (by exact_mod_cast bound)]
  push_cast
  split <;> split <;> omega

theorem ofNat_emod_toNat (w : Nat) (z : Int) : BitVec.ofNat w (z % 2 ^ w).toNat = BitVec.ofInt w z := by
  have number : (z % 2 ^ w).toNat = (BitVec.ofInt w z).toNat := by simp [BitVec.toNat_ofInt]
  rw [number, BitVec.ofNat_toNat, BitVec.setWidth_eq]

theorem ofNat_elemSra {w n : Nat} (power : w = 2 ^ n) (A B : BitVec w) :
    BitVec.ofNat w (elemSra w A.toNat B.toNat) = A.sshiftRight (B &&& BitVec.ofNat w (w - 1)).toNat := by
  have positive : 0 < w := power ▸ Nat.two_pow_pos n
  rw [elemSra, signedOf_toNat positive, ofNat_emod_toNat, elemShift_eq_and power, BitVec.sshiftRight, Int.shiftRight_eq_div_pow]
  push_cast
  rfl

/-- The choice of one of two elements, by a condition on their numbers that `p` decides. -/
theorem ofNat_ite {w : Nat} {c : Prop} [Decidable c] {p : Bool} (A B : BitVec w) (decides : c ↔ p = true) :
    BitVec.ofNat w (if c then A.toNat else B.toNat) = if p then A else B := by
  simp [decides, apply_ite (BitVec.ofNat w)]

theorem signedOf_lt_iff_slt {w : Nat} (positive : 0 < w) (A B : BitVec w) :
    signedOf w A.toNat < signedOf w B.toNat ↔ A.slt B = true := by
  rw [signedOf_toNat positive, signedOf_toNat positive, BitVec.slt_iff_toInt_lt]

theorem ofNat_min {w : Nat} (A B : BitVec w) : BitVec.ofNat w (min A.toNat B.toNat) = if B.ult A then B else A := by
  rw [← ofNat_ite B A BitVec.ult_iff_toNat_lt.symm]
  congr 1
  split <;> omega

theorem ofNat_max {w : Nat} (A B : BitVec w) : BitVec.ofNat w (max A.toNat B.toNat) = if A.ult B then B else A := by
  rw [← ofNat_ite B A BitVec.ult_iff_toNat_lt.symm]
  congr 1
  split <;> omega

/-! ### The meaning of each row: element-wise and without flags (R209) -/

section
variable (s : State) (d a b : VReg) (mk : MReg) (ty : BitVec 4)

theorem exec_viadd : exec (.viadd d a b mk ty) s = runVec s d a b mk (tyWidth ty) (fun _ A B _ => ((A + B) % 2 ^ tyWidth ty, 0)) :=
  rfl

theorem exec_visub : exec (.visub d a b mk ty) s =
    runVec s d a b mk (tyWidth ty) (fun _ A B _ => ((2 ^ tyWidth ty + A - B) % 2 ^ tyWidth ty, 0)) :=
  rfl

theorem exec_vimul : exec (.vimul d a b mk ty) s = runVec s d a b mk (tyWidth ty) (fun _ A B _ => (A * B % 2 ^ tyWidth ty, 0)) :=
  rfl

theorem exec_vand : exec (.vand d a b mk ty) s = runVec s d a b mk (tyWidth ty) (fun _ A B _ => (A &&& B, 0)) :=
  rfl

theorem exec_vor : exec (.vor d a b mk ty) s = runVec s d a b mk (tyWidth ty) (fun _ A B _ => (A ||| B, 0)) :=
  rfl

theorem exec_vxor : exec (.vxor d a b mk ty) s = runVec s d a b mk (tyWidth ty) (fun _ A B _ => (A ^^^ B, 0)) :=
  rfl

theorem exec_vsll : exec (.vsll d a b mk ty) s =
    runVec s d a b mk (tyWidth ty) (fun _ A B _ => (A * 2 ^ elemShift (tyWidth ty) B % 2 ^ tyWidth ty, 0)) :=
  rfl

theorem exec_vsrl : exec (.vsrl d a b mk ty) s =
    runVec s d a b mk (tyWidth ty) (fun _ A B _ => (A / 2 ^ elemShift (tyWidth ty) B, 0)) :=
  rfl

theorem exec_vsra : exec (.vsra d a b mk ty) s = runVec s d a b mk (tyWidth ty) (fun _ A B _ => (elemSra (tyWidth ty) A B, 0)) :=
  rfl

theorem exec_vimin : exec (.vimin d a b mk ty) s =
    runVec s d a b mk (tyWidth ty) (fun _ A B _ => (if signedOf (tyWidth ty) B < signedOf (tyWidth ty) A then B else A, 0)) :=
  rfl

theorem exec_vimax : exec (.vimax d a b mk ty) s =
    runVec s d a b mk (tyWidth ty) (fun _ A B _ => (if signedOf (tyWidth ty) A < signedOf (tyWidth ty) B then B else A, 0)) :=
  rfl

theorem exec_viminn : exec (.viminn d a b mk ty) s = runVec s d a b mk (tyWidth ty) (fun _ A B _ => (min A B, 0)) :=
  rfl

theorem exec_vimaxn : exec (.vimaxn d a b mk ty) s = runVec s d a b mk (tyWidth ty) (fun _ A B _ => (max A B, 0)) :=
  rfl

end

/-! ### The table -/

theorem tyWidth_of_intType {ty : BitVec 4} {w : Nat} (h : IntType ty w) : tyWidth ty = w := by
  obtain ⟨rfl, rfl⟩ | ⟨rfl, rfl⟩ | ⟨rfl, rfl⟩ := h <;> rfl

theorem IntType.width_power {ty : BitVec 4} {w : Nat} (h : IntType ty w) : ∃ n, w = 2 ^ n := by
  obtain ⟨-, rfl⟩ | ⟨-, rfl⟩ | ⟨-, rfl⟩ := h
  · exact ⟨5, rfl⟩
  · exact ⟨4, rfl⟩
  · exact ⟨3, rfl⟩

/-- Settles O20: each row is element-wise and raises no flag, and its arithmetic on the elements' numbers is the row's on bit
vectors of the element's width, which is a power of two. -/
theorem integerVectorsComputeTheirRow : Obligations.IntegerVectorsComputeTheirRow := by
  unfold Obligations.IntegerVectorsComputeTheirRow
  intro s th d a b mk ty w h int computes k
  obtain ⟨n, power⟩ := int.width_power
  obtain rfl := tyWidth_of_intType int
  have positive : 0 < tyWidth ty := power ▸ Nat.two_pow_pos n
  exact ⟨exec_computes (exec_viadd ..) h ofNat_add_mod, exec_computes (exec_visub ..) h ofNat_sub_mod,
    exec_computes (exec_vimul ..) h ofNat_mul_mod,
    exec_computes (exec_vand ..) h ofNat_land, exec_computes (exec_vor ..) h ofNat_lor, exec_computes (exec_vxor ..) h ofNat_xor,
    exec_computes (exec_vsll ..) h (ofNat_shiftLeft_amount power),
    exec_computes (exec_vsrl ..) h (ofNat_ushiftRight_amount power),
    exec_computes (exec_vsra ..) h (ofNat_elemSra power),
    exec_computes (exec_vimin ..) h (fun A B => ofNat_ite B A (signedOf_lt_iff_slt positive B A)),
    exec_computes (exec_vimax ..) h (fun A B => ofNat_ite B A (signedOf_lt_iff_slt positive A B)),
    exec_computes (exec_viminn ..) h ofNat_min, exec_computes (exec_vimaxn ..) h ofNat_max⟩

end Sys2Proof.Machine
end
